-- ==== Sys2Proof/Word.lean ====
section
/-! DEFINITION. The word types of MP3BRK-CORE: bytes of the wire, 16-bit decoder values, 32-bit host words and
peripheral accesses (00_scope.md R9: every value is an unsigned number of a stated width). -/

namespace Sys2Proof

/-- A byte of the serial wire, or field A of a host word. -/
abbrev Byte := BitVec 8

/-- A decoder-register value, or field D of a host word. -/
abbrev Half := BitVec 16

/-- A host-operation word, or the value of a peripheral access. -/
abbrev Word := BitVec 32

end Sys2Proof
end

