-- ==== Sys2Proof/Machine/Params.lean ====
section
/-! DEFINITION. The implementation parameters of 00_scope.md R7: every row of its table is an argument of the model, a
field of `Params` (log 1, 3); DEVICE is the constructor of `Dev` (log 12). `Params.hardware` holds the column "value",
and `Params.Legal` what the claims ask of other values (log 25). -/

namespace Sys2Proof.Machine

/-- The peripheral registers (20_memory.md R72). -/
inductive Reg where
  | mamcr
  | mamtim
  | pllcon
  | pllcfg
  | pllstat
  | pllfeed
  | vpbdiv
  | spcr
  | spsr
  | spdr
  | spccr
  | ioset0
  | iodir0
  | ioclr0
  | pinsel0
  deriving DecidableEq, Repr

/-- Every mapped register, in the order of 20_memory.md R72. -/
def Reg.all : List Reg :=
  [.mamcr, .mamtim, .pllcon, .pllcfg, .pllstat, .pllfeed, .vpbdiv, .spcr, .spsr, .spdr, .spccr, .ioset0,
    .iodir0, .ioclr0, .pinsel0]

/-! ### PROFILE (92_eei_decisions.md D1: 10_state.md R26 to R47, R55; 20_memory.md R72; log 27) -/

/-- The codes of a register's value that have a meaning, by their numbers; every other is reserved or refused
(20_memory.md R83). -/
inductive CodeSet where
  | all
  | only (codes : List Nat)
  | allBut (codes : List Nat)
  /-- The multiples of `step` from `least` on. -/
  | multiples (step least : Nat)
  deriving DecidableEq, Repr

/-- Whether a value is one of the codes. -/
def CodeSet.has (c : CodeSet) {w : Nat} (x : BitVec w) : Bool :=
  match c with
  | .all => true
  | .only codes => codes.contains x.toNat
  | .allBut codes => !codes.contains x.toNat
  | .multiples step least => decide (least ≤ x.toNat) && x.toNat % step == 0

/-- Where a profile puts a register and the bits of its value. -/
structure RegLayout where
  /-- The byte address (20_memory.md R72). -/
  addr : Nat
  /-- Entry k is the place, in the 32-bit word, of bit k of the register's value; the places not listed are reserved. -/
  bits : List Nat
  /-- What the reserved places read (93_implementation_defined.md U10). -/
  reserved : Word
  deriving DecidableEq, Repr

/-- The layout of a register that stores codes of its own. -/
structure CodedLayout extends RegLayout where
  /-- The codes a write may give it. -/
  codes : CodeSet
  deriving DecidableEq, Repr

/-- The feed state machine (10_state.md R31). -/
inductive FeedState where
  | idle
  | armed
  deriving DecidableEq, Repr

/-- The values a profile gives its registers and their flags at reset (10_state.md R26 to R47, R55). -/
structure ResetValues where
  mamcr : BitVec 2
  mamtim : BitVec 3
  pllconHold : BitVec 2
  pllconAct : BitVec 2
  pllcfgHold : BitVec 7
  pllcfgAct : BitVec 7
  plock : Bool
  feedState : FeedState
  vpbdiv : BitVec 2
  pinsel0 : Word
  spcr : Byte
  spccr : Byte
  spdrTx : Byte
  spdrRx : Byte
  spif : Bool
  wcol : Bool
  spifArmed : Bool
  busy : Bool
  iodir0 : Word
  iolatch0 : Word
  deriving DecidableEq, Repr

/-- PROFILE: register addresses, layouts and reset values, with what the layouts' codes select. -/
structure Profile where
  mamcr : CodedLayout
  mamtim : CodedLayout
  pllcon : CodedLayout
  pllcfg : CodedLayout
  /-- Value: PLLCFG_act in bits 6:0, then PLLE, PLLC and PLOCK (10_state.md R28). -/
  pllstat : RegLayout
  pllfeed : RegLayout
  vpbdiv : CodedLayout
  spcr : CodedLayout
  /-- Value: SPIF in bit 0, WCOL in bit 1 (10_state.md R40). -/
  spsr : RegLayout
  spdr : RegLayout
  spccr : CodedLayout
  /-- Value: bit k is pin k's, as in IODIR0 and IOCLR0 (10_state.md R46, R47). -/
  ioset0 : RegLayout
  iodir0 : RegLayout
  ioclr0 : RegLayout
  pinsel0 : RegLayout
  /-- Entry k holds the bits of PINSEL0's value that select port-0 pin k's function; a pin without an entry has none
  (10_state.md R36). -/
  pinFields : List Word
  /-- PINSEL0's value with GPIO selected on every pin (10_state.md R36). -/
  gpioFunctions : Word
  /-- The bits of PINSEL0's value that belong to the serial pins (10_state.md R36). -/
  serialPins : Word
  /-- The functions BUS_CONFIG selects in them (10_state.md R36). -/
  serialFunctions : Word
  /-- The IODIR0 bit that makes a pin an output (10_state.md R46). -/
  outputBit : Bool
  /-- Entry n is the divider of cclk that the VPBDIV code n selects (10_state.md R34). -/
  vpbDividers : List Nat
  /-- The constant factor of the FCCO relation (00_scope.md R8). -/
  fccoFactor : Nat
  reset : ResetValues
  deriving DecidableEq, Repr

/-- The layout a profile gives a register. -/
def Profile.layout (P : Profile) : Reg → RegLayout
  | .mamcr => P.mamcr.toRegLayout
  | .mamtim => P.mamtim.toRegLayout
  | .pllcon => P.pllcon.toRegLayout
  | .pllcfg => P.pllcfg.toRegLayout
  | .pllstat => P.pllstat
  | .pllfeed => P.pllfeed
  | .vpbdiv => P.vpbdiv.toRegLayout
  | .spcr => P.spcr.toRegLayout
  | .spsr => P.spsr
  | .spdr => P.spdr
  | .spccr => P.spccr.toRegLayout
  | .ioset0 => P.ioset0
  | .iodir0 => P.iodir0
  | .ioclr0 => P.ioclr0
  | .pinsel0 => P.pinsel0

/-- The address a profile gives a register. -/
def Profile.addr (P : Profile) (r : Reg) : Nat := (P.layout r).addr

/-- How many bits a register's value has (10_state.md R26 to R47). -/
def Reg.width : Reg → Nat
  | .mamcr => 2
  | .mamtim => 3
  | .pllcon => 2
  | .pllcfg => 7
  | .pllstat => 10
  | .pllfeed => 8
  | .vpbdiv => 2
  | .spcr => 8
  | .spsr => 2
  | .spdr => 8
  | .spccr => 8
  | .ioset0 => 32
  | .iodir0 => 32
  | .ioclr0 => 32
  | .pinsel0 => 32

/-- The reset values of PROFILE_LPC2000 (10_state.md R55). -/
def ResetValues.lpc2000 : ResetValues :=
  { mamcr := 0#2, mamtim := 7#3, pllconHold := 0#2, pllconAct := 0#2, pllcfgHold := 0#7, pllcfgAct := 0#7,
    plock := false, feedState := .idle, vpbdiv := 0#2, pinsel0 := 0#32, spcr := 0#8, spccr := 0#8, spdrTx := 0#8,
    spdrRx := 0#8, spif := false, wcol := false, spifArmed := false, busy := false, iodir0 := 0#32,
    iolatch0 := 0#32 }

/-- A register whose value stands in the word's low `w` bits, reserved bits reading 0. -/
def RegLayout.low (addr w : Nat) : RegLayout := { addr := addr, bits := List.range w, reserved := 0#32 }

/-- PROFILE_LPC2000: the addresses of 20_memory.md R72, the layouts and codes of 10_state.md R26 to R47, reserved bits
reading 0 (93_implementation_defined.md U10), and the reset values of R55. -/
def Profile.lpc2000 : Profile :=
  { mamcr := { toRegLayout := .low 0xE01FC000 2, codes := .allBut [3] }
    mamtim := { toRegLayout := .low 0xE01FC004 3, codes := .allBut [0] }
    pllcon := { toRegLayout := .low 0xE01FC080 2, codes := .all }
    pllcfg := { toRegLayout := .low 0xE01FC084 7, codes := .all }
    pllstat := { addr := 0xE01FC088, bits := [0, 1, 2, 3, 4, 5, 6, 8, 9, 10], reserved := 0#32 }
    pllfeed := .low 0xE01FC08C 8
    vpbdiv := { toRegLayout := .low 0xE01FC100 2, codes := .allBut [3] }
    spcr := { toRegLayout := .low 0xE0020000 8, codes := .only [0x20] }
    spsr := { addr := 0xE0020004, bits := [7, 6], reserved := 0#32 }
    spdr := .low 0xE0020008 8
    spccr := { toRegLayout := .low 0xE002000C 8, codes := .multiples 2 8 }
    ioset0 := .low 0xE0028004 32
    iodir0 := .low 0xE0028008 32
    ioclr0 := .low 0xE002800C 32
    pinsel0 := .low 0xE002C000 32
    pinFields := (List.range 16).map fun k => 3#32 <<< (2 * k)
    gpioFunctions := 0#32
    serialPins := 0x00003F00#32
    serialFunctions := 0x00001500#32
    outputBit := true
    vpbDividers := [4, 1, 2]
    fccoFactor := 2
    reset := ResetValues.lpc2000 }

/-! ### The parameters -/

/-- The parameters of 00_scope.md R7, by the names 30_encoding.md R125 asks for. -/
structure Params where
  /-- FOSC, the crystal frequency in Hz. -/
  fosc : Nat
  /-- CCLK_TARGET, a label no rule reads (90_conflicts.md C1). -/
  cclkTarget : Nat
  /-- PLL_MSEL, the multiplier field (multiplier − 1) of the boot program. -/
  pllMsel : BitVec 5
  /-- PLL_PSEL, the divider field of the boot program; the divider is 2 ^ PLL_PSEL. -/
  pllPsel : BitVec 2
  /-- FCCO_MIN, the lower end of the operating band in Hz. -/
  fccoMin : Nat
  /-- FCCO_MAX, the upper end of the operating band in Hz. -/
  fccoMax : Nat
  /-- MAM_MODE, the memory-accelerator control value CLK_TUNE_MEM writes. -/
  mamMode : BitVec 2
  /-- MAM_CYCLES, the access-cycle count of the boot program. -/
  mamCycles : BitVec 3
  /-- VPBDIV_CODE, the peripheral-clock divider code CLK_TUNE_MEM writes. -/
  vpbdivCode : BitVec 2
  /-- SPI_CCR, the serial clock counter of the boot program. -/
  spiCcr : Byte
  /-- CS_PIN, the port-0 pin that is chip-select. -/
  csPin : Fin 32
  /-- DUMMY_BYTE, sent while READ_REGISTER receives. -/
  dummyByte : Byte
  /-- SCI_READ_OP, the read-opcode byte. -/
  sciReadOp : Byte
  /-- SCI_WRITE_OP, the write-opcode byte. -/
  sciWriteOp : Byte
  /-- FEED_A, the first byte of the feed handshake. -/
  feedA : Byte
  /-- FEED_B, the second byte of the feed handshake. -/
  feedB : Byte
  /-- POLL_BUDGET: `none` is UNBOUNDED (00_scope.md R11). -/
  pollBudget : Option Nat
  /-- LOCK_FAIR (40_clock.md R161). -/
  lockFair : Bool
  /-- SHIFT_FAIR (41_serial.md R187). -/
  shiftFair : Bool
  /-- PROFILE. -/
  profile : Profile
  /-- ADDR_BITS, the peripheral address width (20_memory.md R71). -/
  addrBits : Nat
  /-- REG_ADDR_BITS, the decoder-register address width (20_memory.md R74; log 26). -/
  regAddrBits : Nat
  /-- REG_VALUE_BITS, the decoder-register value width (20_memory.md R74; log 26). -/
  regValueBits : Nat
  /-- SEQ_LEN, the bytes of a command sequence (30_encoding.md R112; log 26). -/
  seqLen : Nat
  deriving DecidableEq, Repr

/-- The column "value" of 00_scope.md R7: this hardware. -/
def Params.hardware : Params :=
  { fosc := 14745600
    cclkTarget := 53236800
    pllMsel := 3#5
    pllPsel := 1#2
    fccoMin := 156000000
    fccoMax := 320000000
    mamMode := 2#2
    mamCycles := 3#3
    vpbdivCode := 1#2
    spiCcr := 64#8
    csPin := 7
    dummyByte := 0xFF#8
    sciReadOp := 0x03#8
    sciWriteOp := 0x02#8
    feedA := 0xAA#8
    feedB := 0x55#8
    pollBudget := none
    lockFair := true
    shiftFair := true
    profile := Profile.lpc2000
    addrBits := 32
    regAddrBits := 8
    regValueBits := 16
    seqLen := 8 }

/-! ### Parameter values the claims are about (log 25) -/

/-- The layout has a place of its own in the word for each of `w` bits. -/
abbrev RegLayout.Fits (l : RegLayout) (w : Nat) : Prop :=
  l.bits.length = w ∧ l.bits.Nodup ∧ ∀ b ∈ l.bits, b < 32

/-- The profile gives each register an address of its own that an aligned access of `addrBits` bits reaches
(20_memory.md R71, R79), and each bit of a value a place of its own. -/
structure Profile.Legal (P : Profile) (addrBits : Nat) : Prop where
  distinct : (Reg.all.map P.addr).Nodup
  reached : ∀ r ∈ Reg.all, P.addr r % 4 = 0 ∧ P.addr r < 2 ^ addrBits
  fits : ∀ r ∈ Reg.all, (P.layout r).Fits r.width

/-- The profile accepts what the operations write (30_encoding.md R108, R115, R116, R120; 41_serial.md R192), a 1 in
IODIR0 among it. -/
structure Profile.AcceptsOperations (P : Profile) : Prop where
  pllcon : P.pllcon.codes.has 1#2 = true ∧ P.pllcon.codes.has 3#2 = true
  pllcfg : ∀ x : BitVec 7, P.pllcfg.codes.has x = true
  mamtim : ∀ x : BitVec 3, x ≠ 0#3 → P.mamtim.codes.has x = true
  spcr : P.spcr.codes.has 0x20#8 = true
  spccr : ∀ x : Byte, 8 ≤ x.toNat → x.toNat % 2 = 0 → P.spccr.codes.has x = true
  outputBit : P.outputBit = true

/-- The profile resets to a PLL and a memory accelerator that are off, to no pending change, flag or transfer, and to
no reserved code in the clock unit (10_state.md R55 for PROFILE_LPC2000). -/
structure Profile.ResetsOff (P : Profile) : Prop where
  pllcon : P.reset.pllconHold = 0#2 ∧ P.reset.pllconAct = 0#2
  pllcfg : P.reset.pllcfgHold = P.reset.pllcfgAct
  mamcr : P.reset.mamcr = 0#2
  clockFlags : P.reset.plock = false ∧ P.reset.feedState = .idle
  serialFlags : P.reset.spif = false ∧ P.reset.wcol = false ∧ P.reset.spifArmed = false ∧ P.reset.busy = false
  codes : P.mamcr.codes.has P.reset.mamcr = true ∧ P.mamtim.codes.has P.reset.mamtim = true ∧
    P.vpbdiv.codes.has P.reset.vpbdiv = true ∧ P.pllcon.codes.has 0#2 = true

/-- Parameter values under which the operations do what 40_clock.md and 41_serial.md say: the column "meaning" of R7
for each value, and the widths this spec fixes (20_memory.md R74, 92_eei_decisions.md D33). -/
structure Params.Legal (p : Params) : Prop where
  profile : p.profile.Legal p.addrBits
  accepts : p.profile.AcceptsOperations
  reset : p.profile.ResetsOff
  mamMode : p.profile.mamcr.codes.has p.mamMode = true
  mamCycles : p.mamCycles ≠ 0#3
  vpbdivCode : p.profile.vpbdiv.codes.has p.vpbdivCode = true
  spiCcr : 8 ≤ p.spiCcr.toNat ∧ p.spiCcr.toNat % 2 = 0
  feeds : p.feedA ≠ p.feedB
  sciOps : p.sciReadOp ≠ p.sciWriteOp
  pollBudget : p.pollBudget ≠ some 0
  regAddrBits : p.regAddrBits = 8
  regValueBits : p.regValueBits = 16
  seqLen : p.seqLen = 8

end Sys2Proof.Machine
end

