-- ==== Sys2Proof/Syntax.lean ====
section
/-! DEFINITION. The instructions: one constructor per row of spec/opcode_table.json. Nine are host operations
(30_encoding.md R105), four are the frames those operations put on the serial wire (R110 to R113). -/

namespace Sys2Proof

/-- The rows of spec/opcode_table.json. Operands have the width of their encoding field. -/
inductive Instr where
  /-- CLK_CONFIGURE m, p: multiplier field and divider field (40_clock.md R142). -/
  | clkConfigure (m : BitVec 5) (p : BitVec 2)
  /-- CLK_ENABLE (40_clock.md R143). -/
  | clkEnable
  /-- CLK_AWAIT_LOCK (40_clock.md R144). -/
  | clkAwaitLock
  /-- CLK_SWITCH (40_clock.md R145). -/
  | clkSwitch
  /-- CLK_TUNE_MEM n: memory access-cycle count (40_clock.md R146). -/
  | clkTuneMem (n : BitVec 3)
  /-- BUS_CONFIG d: serial clock counter (41_serial.md R192). -/
  | busConfig (d : Byte)
  /-- READ_REGISTER a (41_serial.md R193). -/
  | readRegister (a : Byte)
  /-- WRITE_REGISTER a, v (41_serial.md R194). -/
  | writeRegister (a : Byte) (v : Half)
  /-- SEND_COMMAND_SEQUENCE b0, …, b7 (41_serial.md R195). -/
  | sendCommandSequence (b0 b1 b2 b3 b4 b5 b6 b7 : Byte)
  /-- SCI_WRITE_FRAME: the four bytes WRITE_REGISTER a, v sends with CS low (30_encoding.md R110). -/
  | sciWriteFrame (a : Byte) (v : Half)
  /-- SCI_READ_FRAME: the four bytes READ_REGISTER a sends with CS low (30_encoding.md R111). -/
  | sciReadFrame (a : Byte)
  /-- SDI_COMMAND_FRAME: the eight bytes SEND_COMMAND_SEQUENCE sends with CS high (30_encoding.md R112). -/
  | sdiCommandFrame (b0 b1 b2 b3 b4 b5 b6 b7 : Byte)
  /-- SINE_TEST_COMMAND: the tone command's eight bytes with its two parameter bytes (30_encoding.md R113). -/
  | sineTestCommand (p1 p2 : Byte)
  deriving DecidableEq, Repr

end Sys2Proof
end

