-- ==== Sys2Proof/WellFormed.lean ====
section
/-! DEFINITION. Which instructions have an encoding: the operand checks of 30_encoding.md R108, and for a wire
frame that it is spelled by its own row (log 15). -/

namespace Sys2Proof

/-- Eight command bytes of the tone-generator form of 30_encoding.md R113. -/
def isToneCommand (b0 b1 b4 b5 b6 b7 : Byte) : Bool :=
  b0 == 0x53#8 && b1 == 0xEF#8 && b4 == 0#8 && b5 == 0#8 && b6 == 0#8 && b7 == 0#8

/-- CLK_TUNE_MEM needs 1 ≤ n ≤ 7 and BUS_CONFIG an even d ≥ 8 (R108); every other operand value is legal.
DESIGN CHOICE (log 15, safe): eight wire bytes of the tone form are written SINE_TEST_COMMAND. -/
def Instr.wellFormed : Instr → Bool
  | .clkConfigure _ _ => true
  | .clkEnable => true
  | .clkAwaitLock => true
  | .clkSwitch => true
  | .clkTuneMem n => n != 0#3
  | .busConfig d => decide (8 ≤ d.toNat) && d.toNat % 2 == 0
  | .readRegister _ => true
  | .writeRegister _ _ => true
  | .sendCommandSequence _ _ _ _ _ _ _ _ => true
  | .sciWriteFrame _ _ => true
  | .sciReadFrame _ => true
  | .sdiCommandFrame b0 b1 _ _ b4 b5 b6 b7 => !isToneCommand b0 b1 b4 b5 b6 b7
  | .sineTestCommand _ _ => true

end Sys2Proof
end

