-- ==== Sys2Proof/Decode.lean ====
section
/-! DEFINITION. The encodings of 30_encoding.md: host-operation words (sections 1 and 2) and wire frames
(section 3), each with a total decoder that rejects by name and an encoder. A host word never decodes to a wire
frame: the frame rows are "not a host word" (log 14). -/

namespace Sys2Proof

/-- Why the words at op_pc spell no operation; each is ILLEGAL_OP, code 3 (30_encoding.md R107). -/
inductive Reject where
  /-- No word is left in the program (log 19). -/
  | noWord
  /-- OPC is not in the table of R105. -/
  | unassignedOpcode
  /-- A reserved-must-be-zero bit is 1 (R106). -/
  | reservedBit
  /-- The operand check of R108 fails. -/
  | illegalOperand
  /-- OPC = 0x23 and fewer than two words follow (R107). -/
  | missingExtension
  /-- Wire bytes that are no frame of R110 to R113. -/
  | notAFrame
  deriving DecidableEq, Repr

/-- What a decoder answers: the instruction and what follows it, or a rejection by name. -/
inductive Decoded (α : Type) where
  | ok (i : Instr) (rest : List α)
  | reject (why : Reject)
  deriving DecidableEq, Repr

/-! ### Fields of a host word (R100) -/

/-- OPC = w[31:24]. -/
def fieldOpc (w : Word) : Byte := w.extractLsb' 24 8

/-- A = w[23:16]. -/
def fieldA (w : Word) : Byte := w.extractLsb' 16 8

/-- D = w[15:0]. -/
def fieldD (w : Word) : Half := w.extractLsb' 0 16

/-- The host word with the fields OPC, A and D (R100). -/
def hostWord (opc a : Byte) (d : Half) : Word := opc ++ a ++ d

/-- The opcode bytes of R105. -/
def opcClkConfigure : Byte := 0x11#8
def opcClkEnable : Byte := 0x12#8
def opcClkAwaitLock : Byte := 0x13#8
def opcClkSwitch : Byte := 0x14#8
def opcClkTuneMem : Byte := 0x15#8
def opcBusConfig : Byte := 0x20#8
def opcReadRegister : Byte := 0x21#8
def opcWriteRegister : Byte := 0x22#8
def opcSendCommandSequence : Byte := 0x23#8

/-- R104: the length in words of an operation, known from OPC alone. -/
def opLength (opc : Byte) : Nat := if opc = opcSendCommandSequence then 3 else 1

/-! ### Decoding host words (R101 to R108) -/

/-- An operation with no operand: A = 0 and D = 0 (R101, R102). -/
def decodePlain (i : Instr) (w : Word) (rest : List Word) : Decoded Word :=
  if fieldA w = 0#8 ∧ fieldD w = 0#16 then .ok i rest else .reject .reservedBit

/-- CLK_CONFIGURE: D[4:0] = MSEL, D[6:5] = PSEL, the rest zero (R102). -/
def decodeClkConfigure (w : Word) (rest : List Word) : Decoded Word :=
  if fieldA w = 0#8 ∧ (fieldD w).extractLsb' 7 9 = 0#9 then
    .ok (.clkConfigure ((fieldD w).extractLsb' 0 5) ((fieldD w).extractLsb' 5 2)) rest
  else .reject .reservedBit

/-- CLK_TUNE_MEM: A[2:0] = n, 1 ≤ n ≤ 7, the rest zero (R101, R108). -/
def decodeClkTuneMem (w : Word) (rest : List Word) : Decoded Word :=
  if (fieldA w).extractLsb' 3 5 = 0#5 ∧ fieldD w = 0#16 then
    let i := Instr.clkTuneMem ((fieldA w).extractLsb' 0 3)
    if i.wellFormed then .ok i rest else .reject .illegalOperand
  else .reject .reservedBit

/-- BUS_CONFIG: D[7:0] = d, even and at least 8, the rest zero (R102, R108). -/
def decodeBusConfig (w : Word) (rest : List Word) : Decoded Word :=
  if fieldA w = 0#8 ∧ (fieldD w).extractLsb' 8 8 = 0#8 then
    let i := Instr.busConfig ((fieldD w).extractLsb' 0 8)
    if i.wellFormed then .ok i rest else .reject .illegalOperand
  else .reject .reservedBit

/-- READ_REGISTER: A = address, D = 0 (R101, R102). -/
def decodeReadRegister (w : Word) (rest : List Word) : Decoded Word :=
  if fieldD w = 0#16 then .ok (.readRegister (fieldA w)) rest else .reject .reservedBit

/-- Byte k of a word, byte 0 the most significant: the order of the command bytes in W1 and W2 (R103) and of a
frame's bytes in the opcode table's number for it. -/
def wordByte (k : Nat) (w : Word) : Byte := w.extractLsb' (24 - 8 * k) 8

/-- SEND_COMMAND_SEQUENCE: A = 0, D = 0, then W1 and W2 with the eight command bytes (R103, R107). -/
def decodeSendCommandSequence (w : Word) (rest : List Word) : Decoded Word :=
  if fieldA w = 0#8 ∧ fieldD w = 0#16 then
    match rest with
    | w1 :: w2 :: rest' =>
      .ok (.sendCommandSequence (wordByte 0 w1) (wordByte 1 w1) (wordByte 2 w1) (wordByte 3 w1)
        (wordByte 0 w2) (wordByte 1 w2) (wordByte 2 w2) (wordByte 3 w2)) rest'
    | _ => .reject .missingExtension
  else .reject .reservedBit

/-- The host-operation decoder (R105, R107): total on any list of words. -/
def decode (ws : List Word) : Decoded Word :=
  match ws with
  | [] => .reject .noWord
  | w :: rest =>
    if fieldOpc w = opcClkConfigure then decodeClkConfigure w rest
    else if fieldOpc w = opcClkEnable then decodePlain .clkEnable w rest
    else if fieldOpc w = opcClkAwaitLock then decodePlain .clkAwaitLock w rest
    else if fieldOpc w = opcClkSwitch then decodePlain .clkSwitch w rest
    else if fieldOpc w = opcClkTuneMem then decodeClkTuneMem w rest
    else if fieldOpc w = opcBusConfig then decodeBusConfig w rest
    else if fieldOpc w = opcReadRegister then decodeReadRegister w rest
    else if fieldOpc w = opcWriteRegister then .ok (.writeRegister (fieldA w) (fieldD w)) rest
    else if fieldOpc w = opcSendCommandSequence then decodeSendCommandSequence w rest
    else .reject .unassignedOpcode

/-! ### Decoding wire frames (R110 to R113) -/

/-- The frame whose bytes crossed the wire with chip-select at `cs`: SCI frames are four bytes with cs = 0, SDI
frames eight bytes with cs = 1 (opcode_table.json's formats WIRE32 and WIRE64). The tone form is read as
SINE_TEST_COMMAND (log 15). -/
def decodeWire (par : Machine.Params) (cs : Bool) (bytes : List Byte) : Decoded Byte :=
  match cs, bytes with
  | false, [op, a, x, y] =>
    if op = par.sciWriteOp then .ok (.sciWriteFrame a (x ++ y)) []
    else if op = par.sciReadOp ∧ x = par.dummyByte ∧ y = par.dummyByte then .ok (.sciReadFrame a) []
    else .reject .notAFrame
  | true, [b0, b1, b2, b3, b4, b5, b6, b7] =>
    if isToneCommand b0 b1 b4 b5 b6 b7 then .ok (.sineTestCommand b2 b3) []
    else .ok (.sdiCommandFrame b0 b1 b2 b3 b4 b5 b6 b7) []
  | _, _ => .reject .notAFrame

/-! ### Encoding -/

/-- What an instruction's encoding is made of: host words, or the bytes of a wire frame with its CS level. -/
inductive Image where
  | host (words : List Word)
  | wire (cs : Bool) (bytes : List Byte)
  deriving DecidableEq, Repr

/-- v[15:8], the byte of a 16-bit value that crosses the wire first (20_memory.md R77). -/
def highByte (v : Half) : Byte := v.extractLsb' 8 8

/-- v[7:0], the byte of a 16-bit value that crosses the wire second (20_memory.md R77). -/
def lowByte (v : Half) : Byte := v.extractLsb' 0 8

/-- The four command bytes of an extension word, most significant first (R103). -/
def packWord (b0 b1 b2 b3 : Byte) : Word := b0 ++ b1 ++ b2 ++ b3

/-- The bytes of the tone command with the two parameter bytes (R113). -/
def toneBytes (p1 p2 : Byte) : List Byte := [0x53#8, 0xEF#8, p1, p2, 0#8, 0#8, 0#8, 0#8]

/-- The words of a host operation, from the patterns of R105; a wire frame has none. -/
def encodeHost : Instr → List Word
  | .clkConfigure m p => [hostWord opcClkConfigure 0#8 (0#9 ++ p ++ m)]
  | .clkEnable => [hostWord opcClkEnable 0#8 0#16]
  | .clkAwaitLock => [hostWord opcClkAwaitLock 0#8 0#16]
  | .clkSwitch => [hostWord opcClkSwitch 0#8 0#16]
  | .clkTuneMem n => [hostWord opcClkTuneMem (0#5 ++ n) 0#16]
  | .busConfig d => [hostWord opcBusConfig 0#8 (0#8 ++ d)]
  | .readRegister a => [hostWord opcReadRegister a 0#16]
  | .writeRegister a v => [hostWord opcWriteRegister a v]
  | .sendCommandSequence b0 b1 b2 b3 b4 b5 b6 b7 =>
    [hostWord opcSendCommandSequence 0#8 0#16, packWord b0 b1 b2 b3, packWord b4 b5 b6 b7]
  | .sciWriteFrame _ _ => []
  | .sciReadFrame _ => []
  | .sdiCommandFrame _ _ _ _ _ _ _ _ => []
  | .sineTestCommand _ _ => []

/-- The encoding of an instruction: the words of a host operation, or the bytes of a wire frame from the patterns of
R110 to R113. -/
def encode (par : Machine.Params) (i : Instr) : Image :=
  match i with
  | .sciWriteFrame a v => .wire false [par.sciWriteOp, a, highByte v, lowByte v]
  | .sciReadFrame a => .wire false [par.sciReadOp, a, par.dummyByte, par.dummyByte]
  | .sdiCommandFrame b0 b1 b2 b3 b4 b5 b6 b7 => .wire true [b0, b1, b2, b3, b4, b5, b6, b7]
  | .sineTestCommand p1 p2 => .wire true (toneBytes p1 p2)
  | .clkConfigure _ _ => .host (encodeHost i)
  | .clkEnable => .host (encodeHost i)
  | .clkAwaitLock => .host (encodeHost i)
  | .clkSwitch => .host (encodeHost i)
  | .clkTuneMem _ => .host (encodeHost i)
  | .busConfig _ => .host (encodeHost i)
  | .readRegister _ => .host (encodeHost i)
  | .writeRegister _ _ => .host (encodeHost i)
  | .sendCommandSequence _ _ _ _ _ _ _ _ => .host (encodeHost i)

/-- The instruction an image spells, if it spells one and nothing follows it. -/
def decodeImage (par : Machine.Params) : Image → Option Instr
  | .host ws =>
    match decode ws with
    | .ok i [] => some i
    | _ => none
  | .wire cs bytes =>
    match decodeWire par cs bytes with
    | .ok i _ => some i
    | .reject _ => none

/-! ### The opcode table's numbers (log 24), which are this hardware's (log 3) -/

/-- Word k of a table number: bit 0 of the number is the least significant bit of the first word. -/
def tableWord (k w : Nat) : Word := BitVec.ofNat 32 (w / 2 ^ (32 * k))

/-- The bits of a table number below `nbits`; every bit above reads 0. -/
def tableBits (nbits w : Nat) : Nat := w % 2 ^ nbits

/-- The first `n` bytes of a wire row's number, the most significant byte first on the wire. -/
def tableBytes (nbits w : Nat) : List Byte :=
  (List.range (nbits / 8)).map fun k => BitVec.ofNat 8 (w / 2 ^ (nbits - 8 * (k + 1)))

/-- The wire frame a table number spells: 32-bit numbers are SCI frames, 64-bit numbers SDI frames. -/
def decodeTableFrame (nbits w : Nat) : Option Instr :=
  match decodeWire Machine.Params.hardware (nbits == 64) (tableBytes nbits w) with
  | .ok i _ => some i
  | .reject _ => none

/-- The host operation a table number spells, operand words beyond `nbits` being zero. -/
def decodeTableHost (nbits w : Nat) : Option Instr :=
  let v := tableBits nbits w
  match decode [tableWord 0 v, tableWord 1 v, tableWord 2 v] with
  | .ok i _ => some i
  | .reject _ => none

/-- The row of spec/opcode_table.json an instruction of `nbits` bits `w` belongs to: a 64-bit number is a wire
frame; any other number is a host operation if its first word is one, else a wire frame (log 14, 24). -/
def decodeTableWord (nbits w : Nat) : Option Instr :=
  if nbits = 64 then decodeTableFrame nbits w
  else
    match decodeTableHost nbits w with
    | some i => some i
    | none => decodeTableFrame nbits (tableBits nbits w)

end Sys2Proof
end

