-- ==== Sys2Proof/Config.lean ====
section
/-! DEFINITION. What the spec leaves free: opaque constants with no body, so that a theorem holds for every value
of them. The parameters with a fixed value for this hardware stand in Machine/Params.lean, where a repair can
reach them. -/

namespace Sys2Proof

/-- The agents that take steps (00_scope.md R6); DEV takes none of its own. -/
inductive Agent where
  | pll
  | shifter
  | ctrl
  deriving DecidableEq, Repr, Inhabited

/-- FREE VALUE (log 4, safe): the agent that moves at a step when more than one could (60_exceptions.md R240).
Applied to `Moves.tick`. -/
opaque Config.freeAgent : Nat → Agent

/-- FREE VALUE (log 5, safe): how many steps a fair PLL may be passed over (40_clock.md R161). -/
opaque Config.lockPatience : Nat

/-- FREE VALUE (log 5, safe): how many steps a fair SHIFTER may be passed over (41_serial.md R187). -/
opaque Config.shiftPatience : Nat

/-- FREE VALUE (log 8, safe): a received byte that no rule fixes (41_serial.md R188, R189; 93 U3, U4).
Applied to `State.draws`. -/
opaque Config.freeByte : Nat → Byte

/-- FREE VALUE (log 8, safe): what a read of PLLFEED or IOCLR0 returns (20_memory.md R82; 93 U2).
Applied to `State.draws`. -/
opaque Config.freeWord : Nat → Word

/-- FREE VALUE (log 8, safe): the chip-select level while its pin is an input (10_state.md R48; 93 U5).
Applied to `State.draws`. -/
opaque Config.freeLevel : Nat → Bool

end Sys2Proof
end

