-- ==== Sys2Proof/Machine/State.lean ====
section
/-! DEFINITION. The machine state of 10_state.md R20, in that rule's groups, the reasons a step can stop, and the
state after reset (R55, 70_reset_and_hazards.md R260). Plain data throughout. -/

namespace Sys2Proof.Machine

/-- CTRL's status (10_state.md R25). -/
inductive Status where
  | run
  | ended
  | faulted
  deriving DecidableEq, Repr

/-- The Clock Bring-up Sequencer's state (10_state.md R35). -/
inductive SeqState where
  | s0Reset
  | s1Configured
  | s2Enabled
  | s3Locked
  | s4Switched
  | s5Done
  deriving DecidableEq, Repr

/-- The Serial Link's state (10_state.md R49). -/
inductive LinkState where
  | l0Unconfigured
  | l1Ready
  deriving DecidableEq, Repr

/-- The cause codes of 60_exceptions.md R231. -/
inductive Code where
  | timeoutBus
  | timeoutLock
  | illegalOp
  | order
  | writeCollision
  | csInFlight
  | unsupportedAccess
  deriving DecidableEq, Repr

/-- The recorded pair (code, op_pc) of 10_state.md R52. -/
structure FaultRecord where
  code : Code
  opPc : Nat
  deriving DecidableEq, Repr

/-- The events of the wire trace (10_state.md R50). -/
inductive Event where
  /-- CS(level, op). -/
  | cs (level : Bool) (op : Nat)
  /-- XCHG(tx, rx, cs, op). -/
  | xchg (tx rx : Byte) (cs : Bool) (op : Nat)
  deriving DecidableEq, Repr

/-- The decoder-register space (20_memory.md R74) as the echo double holds it: (register address, value) pairs,
addresses strictly rising; an unlisted register is unwritten, which is no value (log 11). -/
abbrev Memory := List (Nat × Half)

/-- The parameter DEVICE (00_scope.md R7). -/
inductive Device where
  | any
  | echo
  deriving DecidableEq, Repr

/-- DEV, the decoder-chip oracle (10_state.md R53); the constructor is the parameter DEVICE (log 12). -/
inductive Dev where
  /-- DEVICE = ANY: any bytes. -/
  | any
  /-- DEVICE = ECHO: the echo test double with its registers (41_serial.md R189). -/
  | echo (regs : Memory)
  deriving DecidableEq, Repr

/-- Group CTRL of 10_state.md R20. -/
structure Ctrl where
  /-- op_pc, index in words of the current operation's first word (R23). -/
  opPc : Nat
  /-- mpc, index of the next micro-step (R24). -/
  mpc : Nat
  /-- status (R25). -/
  status : Status
  /-- t, the value of the last peripheral read (R22). -/
  t : Word
  /-- hi, the first byte READ_REGISTER captures (R22). -/
  hi : Byte
  /-- lo, the second byte READ_REGISTER captures (R22). -/
  lo : Byte
  /-- poll_count, failed reads of the current poll (R22). -/
  pollCount : Nat
  /-- RESULT (R21). -/
  result : Half
  deriving DecidableEq, Repr

/-- Group CLK of 10_state.md R20. -/
structure Clk where
  /-- PLLCON_hold: bit 0 PLLE, bit 1 PLLC (R26, R29). -/
  pllconHold : BitVec 2
  /-- PLLCON_act (R26, R29). -/
  pllconAct : BitVec 2
  /-- PLLCFG_hold: bits 4:0 MSEL, 6:5 PSEL (R27, R29). -/
  pllcfgHold : BitVec 7
  /-- PLLCFG_act (R27, R29). -/
  pllcfgAct : BitVec 7
  /-- PLOCK (R30). -/
  plock : Bool
  /-- feed_state (R31). -/
  feedState : FeedState
  /-- MAMCR (R32). -/
  mamcr : BitVec 2
  /-- MAMTIM (R33). -/
  mamtim : BitVec 3
  /-- VPBDIV (R34). -/
  vpbdiv : BitVec 2
  /-- seq_state (R35). -/
  seqState : SeqState
  deriving DecidableEq, Repr

/-- Group SER of 10_state.md R20. -/
structure Ser where
  /-- PINSEL0 (R36). -/
  pinsel0 : Word
  /-- SPCR (R37). -/
  spcr : Byte
  /-- SPCCR (R38). -/
  spccr : Byte
  /-- SPDR_tx (R39). -/
  spdrTx : Byte
  /-- SPDR_rx (R39). -/
  spdrRx : Byte
  /-- SPIF (R41). -/
  spif : Bool
  /-- WCOL (R42). -/
  wcol : Bool
  /-- spif_armed (R44). -/
  spifArmed : Bool
  /-- busy (R45). -/
  busy : Bool
  /-- IODIR0 (R46). -/
  iodir0 : Word
  /-- IOLATCH0 (R47). -/
  iolatch0 : Word
  /-- link_state (R49). -/
  linkState : LinkState
  deriving DecidableEq, Repr

/-- Group ENV of 10_state.md R20. -/
structure Env where
  /-- trace, the wire trace, oldest event first (R50). -/
  trace : List Event
  /-- results, oldest first (R51). -/
  results : List Half
  /-- fault (R52). -/
  fault : Option FaultRecord
  /-- dev (R53). -/
  dev : Dev
  deriving DecidableEq, Repr

/-- The program and the parameters (00_scope.md R7). MODEL's own place for them: 10_state.md R20 makes them parameters
of the step relation that never change (log 1). -/
structure Setup where
  /-- The program: a finite list of host words (R20, R23). -/
  program : List Word
  /-- The parameters of 00_scope.md R7. -/
  params : Params
  deriving DecidableEq, Repr

/-- MODEL's own: what decides which enabled agent moves next (log 4, 5). -/
structure Moves where
  /-- The agents of the coming steps, next first; past its end the choice is free. -/
  script : List Agent
  /-- Steps taken; the argument of `Config.freeAgent`. -/
  tick : Nat
  /-- Steps in a row at which the PLL was enabled and another agent moved. -/
  pllWait : Nat
  /-- Steps in a row at which the SHIFTER was enabled and another agent moved. -/
  shiftWait : Nat
  deriving DecidableEq, Repr

/-- The machine state (10_state.md R20), with the model's own `setup`, `moves` and `draws`. -/
structure State where
  ctrl : Ctrl
  clk : Clk
  ser : Ser
  env : Env
  setup : Setup
  moves : Moves
  /-- MODEL's own: how many free values have been drawn; their argument (log 8). -/
  draws : Nat
  deriving DecidableEq, Repr

/-- Why a step stops without a next state. The spec's own faults (60_exceptions.md R231) are not among these: they
are entries of the next state (log 6). -/
inductive Fault where
  /-- Raised by `step` when status is END and no other agent is enabled: the run is over (70_reset_and_hazards.md
  R264). Safe: nothing is claimed of what follows (log 7). -/
  | runEnded
  /-- Raised by `step` when status is FAULTED and no other agent is enabled: CTRL takes no step until reset
  (60_exceptions.md R232, R237). Safe (log 7). -/
  | ctrlStopped (why : Option FaultRecord)
  /-- Raised by a meaning at a micro-step index its operation does not have; no run from reset gets there. Safe: the
  spec gives no such micro-step (log 16). -/
  | noMicroStep
  deriving DecidableEq, Repr

/-- Why an instruction has no meaning. -/
inductive Refusal where
  /-- Raised by an arm of `exec` whose instruction has no meaning yet; safe. No arm raises it. -/
  | notModelled (mnemonic : String)
  deriving DecidableEq, Repr

/-- What a step or a meaning answers. -/
abbrev Out := Host.Outcome State Fault Refusal

/-- CTRL after reset with a program of `n` words (10_state.md R55). DESIGN CHOICE (log 9, unsafe): t, hi, lo and
RESULT, which R55 leaves unspecified, are 0. -/
def Ctrl.reset (n : Nat) : Ctrl :=
  { opPc := 0, mpc := 0, status := if n = 0 then .ended else .run, t := 0#32, hi := 0#8, lo := 0#8,
    pollCount := 0, result := 0#16 }

/-- CLK after reset, the registers at the profile's values (10_state.md R55). -/
def Clk.reset (v : ResetValues) : Clk :=
  { pllconHold := v.pllconHold, pllconAct := v.pllconAct, pllcfgHold := v.pllcfgHold, pllcfgAct := v.pllcfgAct,
    plock := v.plock, feedState := v.feedState, mamcr := v.mamcr, mamtim := v.mamtim, vpbdiv := v.vpbdiv,
    seqState := .s0Reset }

/-- SER after reset, the registers at the profile's values (10_state.md R55). -/
def Ser.reset (v : ResetValues) : Ser :=
  { pinsel0 := v.pinsel0, spcr := v.spcr, spccr := v.spccr, spdrTx := v.spdrTx, spdrRx := v.spdrRx, spif := v.spif,
    wcol := v.wcol, spifArmed := v.spifArmed, busy := v.busy, iodir0 := v.iodir0, iolatch0 := v.iolatch0,
    linkState := .l0Unconfigured }

/-- The model's scheduling fields after reset: DESIGN CHOICE (log 10). -/
def Moves.reset : Moves := { script := [], tick := 0, pllWait := 0, shiftWait := 0 }

/-- DEV at reset, per the parameter DEVICE: the echo double's registers are all unwritten (10_state.md R55,
41_serial.md R189). -/
def Device.reset : Device → Dev
  | .any => .any
  | .echo => .echo []

/-- Reset with the parameters, the program and DEVICE given (70_reset_and_hazards.md R260). -/
def State.boot (setup : Setup) (device : Device) : State :=
  { ctrl := Ctrl.reset setup.program.length, clk := Clk.reset setup.params.profile.reset,
    ser := Ser.reset setup.params.profile.reset,
    env := { trace := [], results := [], fault := none, dev := device.reset },
    setup := setup, moves := Moves.reset, draws := 0 }

/-- This hardware's parameter values (00_scope.md R7) with no program loaded. -/
def Setup.hardware : Setup := { program := [], params := Params.hardware }

/-- The machine right after reset: this hardware's parameters, DEVICE = ANY, and the empty program, so status is END
until a program is given from outside (log 2). -/
def State.reset : State := State.boot Setup.hardware .any

end Sys2Proof.Machine
end

