-- ==== Sys2Proof/Machine/Assembler.lean ====
section
/-! DEFINITION. The assembler's operand forms and pseudo-instructions (30_encoding.md R122 to R124) and the boot
program (70_reset_and_hazards.md R263). -/

namespace Sys2Proof.Machine

/-- The mnemonics of an assembler line: the nine operations (R122) and the three pseudo-instructions (R123, R124). -/
inductive Mnemonic where
  | clkConfigure
  | clkEnable
  | clkAwaitLock
  | clkSwitch
  | clkTuneMem
  | busConfig
  | readRegister
  | writeRegister
  | sendCommandSequence
  | clkBringup
  | setMode
  | sineTest
  deriving DecidableEq, Repr

/-- CLK_BRINGUP m, p, n: the five clock operations (R123). -/
def clkBringup (m : BitVec 5) (p : BitVec 2) (n : BitVec 3) : List Instr :=
  [.clkConfigure m p, .clkEnable, .clkAwaitLock, .clkSwitch, .clkTuneMem n]

/-- SET_MODE v (R124). -/
def setMode (v : Half) : Instr := .writeRegister 0x00#8 v

/-- SINE_TEST p1, p2 (R124). -/
def sineTest (p1 p2 : Byte) : Instr := .sendCommandSequence 0x53#8 0xEF#8 p1 p2 0#8 0#8 0#8 0#8

/-- An operand as a field of `w` bits, if it fits. -/
def operand (w n : Nat) : Option (BitVec w) := if n < 2 ^ w then some (BitVec.ofNat w n) else none

/-- The operations if their operands pass the checks of R108. -/
def checkedAll (is : List Instr) : Option (List Instr) := if is.all Instr.wellFormed then some is else none

/-- The operation if its operands pass the checks of R108. -/
def checked (i : Instr) : Option (List Instr) := checkedAll [i]

/-- One assembler line: the operations it stands for, none if the operands do not have the form R122 gives. -/
def assemble (mn : Mnemonic) (operands : List Nat) : Option (List Instr) :=
  match mn, operands with
  | .clkConfigure, [m, p] => do checked (.clkConfigure (← operand 5 m) (← operand 2 p))
  | .clkEnable, [] => checked .clkEnable
  | .clkAwaitLock, [] => checked .clkAwaitLock
  | .clkSwitch, [] => checked .clkSwitch
  | .clkTuneMem, [n] => do checked (.clkTuneMem (← operand 3 n))
  | .busConfig, [d] => do checked (.busConfig (← operand 8 d))
  | .readRegister, [a] => do checked (.readRegister (← operand 8 a))
  | .writeRegister, [a, v] => do checked (.writeRegister (← operand 8 a) (← operand 16 v))
  | .sendCommandSequence, [b0, b1, b2, b3, b4, b5, b6, b7] => do
    checked (.sendCommandSequence (← operand 8 b0) (← operand 8 b1) (← operand 8 b2) (← operand 8 b3)
      (← operand 8 b4) (← operand 8 b5) (← operand 8 b6) (← operand 8 b7))
  | .clkBringup, [m, p, n] => do
    checkedAll (clkBringup (← operand 5 m) (← operand 2 p) (← operand 3 n))
  | .setMode, [v] => do checked (setMode (← operand 16 v))
  | .sineTest, [p1, p2] => do checked (sineTest (← operand 8 p1) (← operand 8 p2))
  | _, _ => none

/-- The host operation that puts an instruction's frame on the wire; a host operation is its own
(30_encoding.md R110 to R113, log 13). -/
def carrier : Instr → Instr
  | .sciWriteFrame a v => .writeRegister a v
  | .sciReadFrame a => .readRegister a
  | .sdiCommandFrame b0 b1 b2 b3 b4 b5 b6 b7 => .sendCommandSequence b0 b1 b2 b3 b4 b5 b6 b7
  | .sineTestCommand p1 p2 => sineTest p1 p2
  | .clkConfigure m p => .clkConfigure m p
  | .clkEnable => .clkEnable
  | .clkAwaitLock => .clkAwaitLock
  | .clkSwitch => .clkSwitch
  | .clkTuneMem n => .clkTuneMem n
  | .busConfig d => .busConfig d
  | .readRegister a => .readRegister a
  | .writeRegister a v => .writeRegister a v
  | .sendCommandSequence b0 b1 b2 b3 b4 b5 b6 b7 => .sendCommandSequence b0 b1 b2 b3 b4 b5 b6 b7

/-- The program words of an instruction's host operation. -/
def hostWords (i : Instr) : List Word := encodeHost (carrier i)

/-- A program's words. -/
def programWords (is : List Instr) : List Word := is.flatMap hostWords

/-- The boot program of 70_reset_and_hazards.md R263. -/
def bootProgram (par : Params) : List Instr :=
  clkBringup par.pllMsel par.pllPsel par.mamCycles ++
    [.busConfig par.spiCcr, setMode 0x0C20#16, sineTest 0x6E#8 170#8]

/-- The words a table number stands for in a program: those of the operation it spells or, for a wire frame, of the
operation that emits it; a number that spells neither is placed as it is, to be rejected (log 14). -/
def fetchWords (nbits w : Nat) : List Word :=
  match decodeTableWord nbits w with
  | some i => hostWords i
  | none => [tableWord 0 (tableBits nbits w)]

/-- The program with `ws` at word index `pc`, zero words filling up to it. -/
def placeWords (ws : List Word) (pc : Nat) (program : List Word) : List Word :=
  program.take pc ++ List.replicate (pc - program.length) 0#32 ++ ws ++ program.drop (pc + ws.length)

end Sys2Proof.Machine
end

