-- ==== Sys2Proof/Machine/Derived.lean ====
section
/-! DEFINITION. What the spec derives from the state: the clock (10_state.md R56), the operating band (00_scope.md
R8) and the non-normative frequencies (40_clock.md R162, 70_reset_and_hazards.md R276). Only the band is read by a
step, and only to decide fairness (40_clock.md R161). -/

namespace Sys2Proof.Machine

/-- MSEL of a PLLCFG value (10_state.md R27). -/
def msel (cfg : BitVec 7) : Nat := (cfg.extractLsb' 0 5).toNat

/-- PSEL of a PLLCFG value (10_state.md R27). -/
def psel (cfg : BitVec 7) : Nat := (cfg.extractLsb' 5 2).toNat

/-- FCCO in Hz of a PLL running with a PLLCFG value (00_scope.md R8). -/
def fcco (par : Params) (cfg : BitVec 7) : Nat :=
  par.fosc * (msel cfg + 1) * par.profile.fccoFactor * 2 ^ psel cfg

/-- The band condition of 00_scope.md R8. -/
def inBand (par : Params) (cfg : BitVec 7) : Bool :=
  decide (par.fccoMin ≤ fcco par cfg) && decide (fcco par cfg ≤ par.fccoMax)

/-- FCCO in Hz now: 0 while the PLL is off, and from CLK_ENABLE's commit on that of the active configuration
(40_clock.md R162). -/
def oscillator (par : Params) (c : Clk) : Nat := if c.pllconAct.getLsbD 0 then fcco par c.pllcfgAct else 0

/-- `connected`: the system clock runs from the PLL (10_state.md R56, 40_clock.md R153). -/
def connected (c : Clk) : Bool := c.pllconAct.getLsbD 0 && c.pllconAct.getLsbD 1 && c.plock

/-- cclk in Hz (10_state.md R56). -/
def cclk (par : Params) (c : Clk) : Nat :=
  if connected c then par.fosc * (msel c.pllcfgAct + 1) else par.fosc

/-- The divider a VPBDIV value selects (10_state.md R34, R56); none for a reserved code, for which R56 gives no d
(DESIGN CHOICE, log 28). -/
def vpbDivider (par : Params) (v : BitVec 2) : Option Nat := par.profile.vpbDividers[v.toNat]?

/-- pclk in Hz (10_state.md R56). DESIGN CHOICE (log 28): R56 gives no rounding, and where d does not divide cclk
(never with this hardware's FOSC) the quotient is rounded down. -/
def pclk (par : Params) (c : Clk) : Option Nat := (vpbDivider par c.vpbdiv).map fun d => cclk par c / d

/-- The serial bit rate in bit/s (70_reset_and_hazards.md R276). DESIGN CHOICE (log 28): none while SPCCR is 0, and the
quotient is rounded down, of which R276 says nothing. -/
def bitRate (s : State) : Option Nat :=
  if s.ser.spccr = 0#8 then none else (pclk s.setup.params s.clk).map fun p => p / s.ser.spccr.toNat

end Sys2Proof.Machine
end

