-- ==== Sys2Proof/Machine/Operands.lean ====
section
/-! DEFINITION. Operand forms: how a profile's layouts spell register values, the register map of 20_memory.md R72,
which values each register accepts, and the values the operations make of their operands (30_encoding.md section 4). -/

namespace Sys2Proof.Machine

/-! ### A profile's layouts -/

/-- The `n` bits `f 0` to `f (n - 1)`. -/
def tabulate (f : Nat → Bool) : (n : Nat) → BitVec n
  | 0 => 0#0
  | n + 1 => BitVec.cons (f n) (tabulate f n)

/-- The word with bit k of `x` at the place the list gives k, counting from `k`, and 0 elsewhere. -/
def spread {w : Nat} (x : BitVec w) (k : Nat) (places : List Nat) : Word :=
  match places with
  | [] => 0#32
  | b :: rest => (if x.getLsbD k then BitVec.twoPow 32 b else 0#32) ||| spread x (k + 1) rest

/-- The word that spells a register's value, reserved places 0. -/
def RegLayout.word (l : RegLayout) {w : Nat} (x : BitVec w) : Word := spread x 0 l.bits

/-- The value a word spells. -/
def RegLayout.value (l : RegLayout) (w : Nat) (v : Word) : BitVec w :=
  tabulate (fun k => (l.bits[k]?).any v.getLsbD) w

/-- The places of a register's bits. -/
def RegLayout.mask (l : RegLayout) : Word := l.word (BitVec.allOnes l.bits.length)

/-- The word has no reserved bit set. -/
def RegLayout.clean (l : RegLayout) (v : Word) : Bool := v &&& ~~~l.mask == 0#32

/-- What a read of a register with the value `x` returns (93_implementation_defined.md U10 for the reserved places). -/
def RegLayout.read (l : RegLayout) {w : Nat} (x : BitVec w) : Word := l.word x ||| (l.reserved &&& ~~~l.mask)

/-- The place of bit `k` of a register's value. -/
def RegLayout.place (l : RegLayout) (k : Nat) : Nat := l.bits.getD k 0

/-! ### The register map -/

/-- The register at an address, if one is mapped there (20_memory.md R71, R73). -/
def Profile.regAt (P : Profile) (addr : Nat) : Option Reg := Reg.all.find? fun r => P.addr r == addr

/-- An access the peripheral space takes: four bytes wide, at a multiple of 4 within ADDR_BITS (20_memory.md
R71, R79). -/
def accessAligned (addrBits addr width : Nat) : Bool :=
  width == 4 && addr % 4 == 0 && decide (addr < 2 ^ addrBits)

/-- The SPCR value the block writes, the only one with a meaning: master, CPOL 0, CPHA 0, most significant bit first, no
interrupt (10_state.md R37, 30_encoding.md R120). -/
def spcrValue : Byte := 0x20#8

/-- A word that a register storing codes of `w` bits takes: no reserved bit set, and the value a code with a meaning. -/
def CodedLayout.accepts (l : CodedLayout) (w : Nat) (v : Word) : Bool := l.clean v && l.codes.has (l.value w v)

/-- Whether a write of `v` has a meaning (20_memory.md R83): read-only registers, and reserved bits and codes of the
registers 10_state.md R26 to R38 refuse some of, have none; the rules refuse no write of another register, and what
another register's layout leaves out of a write is ignored, as PLLFEED and SPDR do (R31, R39). -/
def Reg.accepts (P : Profile) (r : Reg) (v : Word) : Bool :=
  match r with
  | .mamcr => P.mamcr.accepts 2 v
  | .mamtim => P.mamtim.accepts 3 v
  | .pllcon => P.pllcon.accepts 2 v
  | .pllcfg => P.pllcfg.accepts 7 v
  | .pllstat => false
  | .pllfeed => true
  | .vpbdiv => P.vpbdiv.accepts 2 v
  | .spcr => P.spcr.accepts 8 v
  | .spsr => false
  | .spdr => true
  | .spccr => P.spccr.accepts 8 v
  | .ioset0 => true
  | .iodir0 => true
  | .ioclr0 => true
  | .pinsel0 => true

/-! ### Values the operations make -/

/-- CSM, the chip-select mask 1 << CS_PIN (30_encoding.md R121). -/
def csm (pin : Fin 32) : Word := 1#32 <<< pin.val

/-- The chip-select bit of a port-0 value, whose bit k is pin k's. -/
def csBit (pin : Fin 32) (v : Word) : Bool := v.getLsbD pin.val

/-- The PLLCFG value p:m (30_encoding.md R115). -/
def pllcfgValue (m : BitVec 5) (p : BitVec 2) : BitVec 7 := p ++ m

/-- PLLE set and PLLC clear (30_encoding.md R116). -/
def pllconEnable : BitVec 2 := 1#2

/-- PLLE and PLLC both set (30_encoding.md R116). -/
def pllconConnect : BitVec 2 := 3#2

/-- The bits of PINSEL0's value that select a port-0 pin's function (10_state.md R36). -/
def Profile.pinField (P : Profile) (pin : Fin 32) : Word := P.pinFields.getD pin.val 0#32

/-- PINSEL0's value `x` with the bits of `field` replaced by those of `functions`. -/
def selectPins (x field functions : Word) : Word := (x &&& ~~~field) ||| (functions &&& field)

/-- PINSEL0's value `x` with GPIO on CS_PIN and the serial pins' functions selected, other pins kept (10_state.md R36,
30_encoding.md R121). DESIGN CHOICE (log 29): where CS_PIN is itself a serial pin (4, 5 or 6 in PROFILE_LPC2000) R36
asks both of one field, and the serial function is selected. -/
def pinselValue (par : Params) (x : Word) : Word :=
  let P := par.profile
  selectPins (selectPins x (P.pinField par.csPin) P.gpioFunctions) P.serialPins P.serialFunctions

/-- The word BUS_CONFIG writes to PINSEL0 after reading `t` from it (41_serial.md R192). -/
def pinselWord (par : Params) (t : Word) : Word :=
  par.profile.pinsel0.word (pinselValue par (par.profile.pinsel0.value 32 t))

/-- The word BUS_CONFIG writes to IODIR0 after reading `t` from it: t | CSM (41_serial.md R192). -/
def iodirWord (par : Params) (t : Word) : Word := t ||| par.profile.iodir0.word (csm par.csPin)

/-- hi:lo, the value READ_REGISTER assembles (41_serial.md R193). -/
def joinBytes (hi lo : Byte) : Half := hi ++ lo

/-- The bytes WRITE_REGISTER a, v sends (30_encoding.md R110; high byte first, 20_memory.md R77). -/
def sciWriteBytes (par : Params) (a : Byte) (v : Half) : List Byte := [par.sciWriteOp, a, highByte v, lowByte v]

/-- The bytes READ_REGISTER a sends (30_encoding.md R111). -/
def sciReadBytes (par : Params) (a : Byte) : List Byte := [par.sciReadOp, a, par.dummyByte, par.dummyByte]

/-- The bytes SEND_COMMAND_SEQUENCE sends, SEQ_LEN of them (30_encoding.md R112; log 26). -/
def sdiBytes (par : Params) (bytes : List Byte) : List Byte := bytes.take par.seqLen

/-- A decoder register the chip has (20_memory.md R74; log 26). -/
def Params.hasRegister (par : Params) (a : Byte) : Bool := decide (a.toNat < 2 ^ par.regAddrBits)

/-- A value as a decoder register of REG_VALUE_BITS bits holds it (20_memory.md R74; log 26). -/
def Params.registerValue (par : Params) (v : Half) : Half := BitVec.ofNat 16 (v.toNat % 2 ^ par.regValueBits)

end Sys2Proof.Machine
end

