-- ==== Sys2Proof/Machine/Device.lean ====
section
/-! DEFINITION. DEV, the decoder-chip oracle: the register memory of the echo double in its canonical form, the
frame in progress read off the trace, and the answer to one exchange (41_serial.md R188, R189). -/

namespace Sys2Proof.Machine

/-- The value a decoder register holds, none if it is unwritten (41_serial.md R189). -/
def Memory.read (m : Memory) (a : Byte) : Option Half :=
  match m with
  | [] => none
  | (k, v) :: rest => if k = a.toNat then some v else Memory.read rest a

/-- The memory with one register written, addresses still strictly rising. -/
def Memory.insert (m : Memory) (k : Nat) (v : Half) : Memory :=
  match m with
  | [] => [(k, v)]
  | (j, u) :: rest =>
    if k < j then (k, v) :: (j, u) :: rest
    else if k = j then (k, v) :: rest
    else (j, u) :: Memory.insert rest k v

/-- regs[a] ← v (41_serial.md R189). -/
def Memory.write (m : Memory) (a : Byte) (v : Half) : Memory := Memory.insert m a.toNat v

/-- Every address is at least `lo` and below 256, and addresses rise strictly. -/
def Memory.wfFrom (lo : Nat) (m : Memory) : Bool :=
  match m with
  | [] => true
  | (k, _) :: rest => decide (lo ≤ k) && decide (k < 256) && Memory.wfFrom (k + 1) rest

/-- The canonical form: 8-bit addresses (20_memory.md R74), strictly rising. No entry stands for an unwritten
register, since an entry always holds a value. -/
def Memory.wf (m : Memory) : Bool := Memory.wfFrom 0 m

/-- The canonical form of the oracle's state. -/
def Dev.wf (d : Dev) : Bool :=
  match d with
  | .any => true
  | .echo regs => Memory.wf regs

/-- The parameter DEVICE of an oracle's state (00_scope.md R7, log 12). -/
def Dev.device (d : Dev) : Device :=
  match d with
  | .any => .any
  | .echo _ => .echo

/-- One event of the scan for the SCI frame in progress: a CS(0) starts a frame, an exchange with cs = 0 joins it. -/
def sciScan (acc : Option (List Byte)) (e : Event) : Option (List Byte) :=
  match e with
  | .cs false _ => some []
  | .cs true _ => acc
  | .xchg tx _ false _ => acc.map (· ++ [tx])
  | .xchg _ _ true _ => acc

/-- The tx bytes of the exchanges with cs = 0 after the last CS(0) event (41_serial.md R189); none before the first
CS(0) (log 20). -/
def sciInProgress (trace : List Event) : Option (List Byte) := trace.foldl sciScan none

/-- The byte read back from a decoder register, a draw if it is unwritten (41_serial.md R189). -/
def Memory.readByte (m : Memory) (a : Byte) (part : Half → Byte) (n : Nat) : Byte :=
  match Memory.read m a with
  | some v => part v
  | none => Config.freeByte n

/-- regs[a] ← v in the echo double, whose registers are those of REG_ADDR_BITS and REG_VALUE_BITS (41_serial.md R189,
20_memory.md R74). -/
def echoTake (par : Params) (regs : Memory) (a : Byte) (v : Half) : Memory :=
  if par.hasRegister a then Memory.write regs a (par.registerValue v) else regs

/-- The echo double's answer to the exchange of `tx` with cs = 0, given the frame's earlier bytes
(41_serial.md R189); `n` is the draw's number. -/
def echoAnswer (par : Params) (regs : Memory) (sent : List Byte) (tx : Byte) (n : Nat) : Byte × Memory :=
  match sent with
  | [op0, a] =>
    (if op0 = par.sciReadOp then Memory.readByte regs a highByte n else Config.freeByte n, regs)
  | [op0, a, hi] =>
    (if op0 = par.sciReadOp then Memory.readByte regs a lowByte n else Config.freeByte n,
      if op0 = par.sciWriteOp then echoTake par regs a (hi ++ tx) else regs)
  | _ => (Config.freeByte n, regs)

/-- DEV.answer (41_serial.md R186, R188, R189): the byte received and the oracle afterwards. -/
def Dev.answer (par : Params) (d : Dev) (trace : List Event) (tx : Byte) (cs : Bool) (n : Nat) : Byte × Dev :=
  match d with
  | .any => (Config.freeByte n, .any)
  | .echo regs =>
    match cs, sciInProgress trace with
    | false, some sent => ((echoAnswer par regs sent tx n).1, .echo (echoAnswer par regs sent tx n).2)
    | _, _ => (Config.freeByte n, .echo regs)

end Sys2Proof.Machine
end

