-- ==== Sys2Proof/Machine/Flags.lean ====
section
/-! DEFINITION. The flag computations: the status registers' read values, the feed state machine and PLOCK
(40_clock.md R147 to R152), SPIF, WCOL and spif_armed (41_serial.md R182 to R185). -/

namespace Sys2Proof.Machine

/-! ### Clock-control unit -/

/-- PLLSTAT: PLOCK, PLLC, PLLE and the active configuration (10_state.md R28). -/
def Clk.pllstat (c : Clk) : BitVec 10 := BitVec.ofBool c.plock ++ c.pllconAct ++ c.pllcfgAct

/-- PLOCK after a commit (40_clock.md R152). -/
def plockAfter (oldCfg newCfg : BitVec 7) (con : BitVec 2) (plock : Bool) : Bool :=
  if newCfg ≠ oldCfg ∨ con.getLsbD 0 = false then false else plock

/-- A commit: both holding copies become active, then PLOCK (40_clock.md R149, R152). -/
def Clk.commit (c : Clk) : Clk :=
  { c with
    pllconAct := c.pllconHold
    pllcfgAct := c.pllcfgHold
    plock := plockAfter c.pllcfgAct c.pllcfgHold c.pllconHold c.plock }

/-- A PLLFEED write of the byte `b` (40_clock.md R147). -/
def Clk.feedWrite (par : Params) (b : Byte) (c : Clk) : Clk :=
  if b = par.feedA then { c with feedState := .armed }
  else if b = par.feedB ∧ c.feedState = .armed then { c.commit with feedState := .idle }
  else { c with feedState := .idle }

/-- The feed abort of every access but a PLLFEED write (40_clock.md R148). -/
def Clk.disarm (c : Clk) : Clk := { c with feedState := .idle }

/-- The PLL's lock step (40_clock.md R160). -/
def Clk.lock (c : Clk) : Clk := { c with plock := true }

/-! ### Serial unit -/

/-- SPSR: WCOL and SPIF; ROVR, MODF and ABRT are hardwired 0 and no part of it (10_state.md R40, R43). -/
def Ser.spsr (r : Ser) : BitVec 2 := BitVec.ofBool r.wcol ++ BitVec.ofBool r.spif

/-- What an SPSR read leaves: armed if SPIF or WCOL was seen (41_serial.md R184). -/
def Ser.arm (r : Ser) : Ser := { r with spifArmed := r.spifArmed || r.spif || r.wcol }

/-- The clearing rule at the start of every SPDR access (41_serial.md R185). -/
def Ser.clearArmed (r : Ser) : Ser :=
  if r.spifArmed then { r with spif := false, wcol := false, spifArmed := false } else r

/-- A transfer starts: the byte is queued (41_serial.md R182). -/
def Ser.queue (b : Byte) (r : Ser) : Ser := { r with spdrTx := b, busy := true }

/-- A transfer completes with the byte received (41_serial.md R186). -/
def Ser.finish (rx : Byte) (r : Ser) : Ser := { r with spdrRx := rx, spif := true, busy := false }

end Sys2Proof.Machine
end

