-- ==== Sys2Proof/Machine/Ops.lean ====
section
/-! DEFINITION. The operations every meaning is made of: advancing CTRL, raising a fault (the spec's exception,
60_exceptions.md R232), the peripheral accesses with their side effects (20_memory.md R79 to R83), and the
micro-steps and subroutines FEED, POLL and XFER. -/

namespace Sys2Proof.Machine

/-! ### Moving CTRL -/

/-- `raise Fault(code)` (60_exceptions.md R232): the record is set and CTRL stops; op_pc and mpc keep their values
and nothing else changes. There is no return from it (R237). -/
def State.raise (c : Code) (s : State) : State :=
  { s with
    ctrl := { s.ctrl with status := .faulted }
    env := { s.env with fault := some { code := c, opPc := s.ctrl.opPc } } }

/-- mpc ← mpc + 1 (10_state.md R24). -/
def State.advance (s : State) : State := { s with ctrl := { s.ctrl with mpc := s.ctrl.mpc + 1 } }

/-- The last micro-step of an operation of `len` words completes: op_pc advances, mpc ← 0, and at the program's end
status ← END (10_state.md R23, R24). -/
def State.complete (len : Nat) (s : State) : State :=
  { s with
    ctrl :=
      { s.ctrl with
        opPc := s.ctrl.opPc + len
        mpc := 0
        status := if s.ctrl.opPc + len = s.setup.program.length then .ended else s.ctrl.status } }

/-- seq_state ← q (10_state.md R35). -/
def State.setSeq (q : SeqState) (s : State) : State := { s with clk := { s.clk with seqState := q } }

/-- link_state ← q (10_state.md R49). -/
def State.setLink (q : LinkState) (s : State) : State := { s with ser := { s.ser with linkState := q } }

/-- t ← v (10_state.md R22). -/
def State.setT (v : Word) (s : State) : State := { s with ctrl := { s.ctrl with t := v } }

/-- hi ← b (10_state.md R22). -/
def State.setHi (b : Byte) (s : State) : State := { s with ctrl := { s.ctrl with hi := b } }

/-- lo ← b (10_state.md R22). -/
def State.setLo (b : Byte) (s : State) : State := { s with ctrl := { s.ctrl with lo := b } }

/-- poll_count ← n (10_state.md R22). -/
def State.setPollCount (n : Nat) (s : State) : State := { s with ctrl := { s.ctrl with pollCount := n } }

/-- RESULT ← v; results ← results ++ [v] (10_state.md R21, R51). -/
def State.giveResult (v : Half) (s : State) : State :=
  { s with ctrl := { s.ctrl with result := v }, env := { s.env with results := s.env.results ++ [v] } }

/-- `emit E` (00_scope.md R10, 10_state.md R50). -/
def State.emit (e : Event) (s : State) : State := { s with env := { s.env with trace := s.env.trace ++ [e] } }

/-- The feed abort (40_clock.md R148). -/
def State.disarm (s : State) : State := { s with clk := s.clk.disarm }

/-- The chip-select level the latch gives, as XCHG and CS events record it (10_state.md R50). -/
def State.csLatch (s : State) : Bool := csBit s.setup.params.csPin s.ser.iolatch0

/-- The chip-select level the decoder sees (10_state.md R48): free while the pin is an input (log 8). -/
def State.csLevel (s : State) : Bool :=
  if csBit s.setup.params.csPin s.ser.iodir0 == s.setup.params.profile.outputBit then s.csLatch
  else Config.freeLevel s.draws

/-! ### Peripheral accesses -/

/-- What an access answers: it takes effect, or a code is to be raised in the state left by the access. -/
inductive Access (α : Type) where
  | ok (v : α) (s : State)
  | bad (c : Code) (s : State)
  deriving DecidableEq, Repr

/-- The value a read of a register returns (10_state.md R26 to R47). -/
def regValue (r : Reg) (s : State) : Word :=
  match r with
  | .mamcr => s.setup.params.profile.mamcr.read s.clk.mamcr
  | .mamtim => s.setup.params.profile.mamtim.read s.clk.mamtim
  | .pllcon => s.setup.params.profile.pllcon.read s.clk.pllconHold
  | .pllcfg => s.setup.params.profile.pllcfg.read s.clk.pllcfgHold
  | .pllstat => s.setup.params.profile.pllstat.read s.clk.pllstat
  | .pllfeed => Config.freeWord s.draws
  | .vpbdiv => s.setup.params.profile.vpbdiv.read s.clk.vpbdiv
  | .spcr => s.setup.params.profile.spcr.read s.ser.spcr
  | .spsr => s.setup.params.profile.spsr.read s.ser.spsr
  | .spdr => s.setup.params.profile.spdr.read s.ser.spdrRx
  | .spccr => s.setup.params.profile.spccr.read s.ser.spccr
  | .ioset0 => s.setup.params.profile.ioset0.read s.ser.iolatch0
  | .iodir0 => s.setup.params.profile.iodir0.read s.ser.iodir0
  | .ioclr0 => Config.freeWord s.draws
  | .pinsel0 => s.setup.params.profile.pinsel0.read s.ser.pinsel0

/-- The side effects of a read beyond the feed abort (20_memory.md R80): SPSR may arm, SPDR may clear, a read of a
write-only register draws. -/
def readEffect (r : Reg) (s : State) : State :=
  match r with
  | .mamcr => s
  | .mamtim => s
  | .pllcon => s
  | .pllcfg => s
  | .pllstat => s
  | .pllfeed => { s with draws := s.draws + 1 }
  | .vpbdiv => s
  | .spcr => s
  | .spsr => { s with ser := s.ser.arm }
  | .spdr => { s with ser := s.ser.clearArmed }
  | .spccr => s
  | .ioset0 => s
  | .iodir0 => s
  | .ioclr0 => { s with draws := s.draws + 1 }
  | .pinsel0 => s

/-- An SPDR write of the byte `b` (41_serial.md R182): the clearing rule, then a collision or a transfer. On a collision
the byte is not queued and WCOL is set (log 17). -/
def spdrWrite (b : Byte) (s : State) : Access Unit :=
  let r := s.ser.clearArmed
  if s.ser.busy then .bad .writeCollision { s with ser := { r with wcol := true } }
  else .ok () { s with ser := r.queue b }

/-- A write of the output latch through IOSET0 or IOCLR0, of which `v` has the pins' bits (41_serial.md R190, R191):
with the chip-select bit it is refused in flight, and otherwise emits a CS event. -/
def latchWrite (v latch : Word) (s : State) : Access Unit :=
  let t := { s with ser := { s.ser with iolatch0 := latch } }
  if csBit s.setup.params.csPin v then
    if s.ser.busy then .bad .csInFlight s else .ok () (t.emit (.cs t.csLatch s.ctrl.opPc))
  else .ok () t

/-- The effect of a write the register accepts (10_state.md R26 to R47), the feed abort apart. What PLLFEED and SPDR
ignore of the value is what their layouts leave out (10_state.md R31, R39). -/
def storeReg (r : Reg) (v : Word) (s : State) : Access Unit :=
  match r with
  | .mamcr => .ok () { s with clk := { s.clk with mamcr := s.setup.params.profile.mamcr.value 2 v } }
  | .mamtim => .ok () { s with clk := { s.clk with mamtim := s.setup.params.profile.mamtim.value 3 v } }
  | .pllcon => .ok () { s with clk := { s.clk with pllconHold := s.setup.params.profile.pllcon.value 2 v } }
  | .pllcfg => .ok () { s with clk := { s.clk with pllcfgHold := s.setup.params.profile.pllcfg.value 7 v } }
  | .pllstat => .bad .unsupportedAccess s
  | .pllfeed => .ok () { s with clk := s.clk.feedWrite s.setup.params (s.setup.params.profile.pllfeed.value 8 v) }
  | .vpbdiv => .ok () { s with clk := { s.clk with vpbdiv := s.setup.params.profile.vpbdiv.value 2 v } }
  | .spcr => .ok () { s with ser := { s.ser with spcr := s.setup.params.profile.spcr.value 8 v } }
  | .spsr => .bad .unsupportedAccess s
  | .spdr => spdrWrite (s.setup.params.profile.spdr.value 8 v) s
  | .spccr => .ok () { s with ser := { s.ser with spccr := s.setup.params.profile.spccr.value 8 v } }
  | .ioset0 =>
    let x := s.setup.params.profile.ioset0.value 32 v
    latchWrite x (s.ser.iolatch0 ||| x) s
  | .iodir0 => .ok () { s with ser := { s.ser with iodir0 := s.setup.params.profile.iodir0.value 32 v } }
  | .ioclr0 =>
    let x := s.setup.params.profile.ioclr0.value 32 v
    latchWrite x (s.ser.iolatch0 &&& ~~~x) s
  | .pinsel0 => .ok () { s with ser := { s.ser with pinsel0 := s.setup.params.profile.pinsel0.value 32 v } }

/-- The feed abort an access makes beside its own effect (40_clock.md R148): any access that takes place, a
colliding SPDR write among them (log 17), but no refused one (log 18) and no PLLFEED write. -/
def feedAbort (r : Reg) (a : Access Unit) : Access Unit :=
  match a with
  | .ok v s => .ok v (if r = .pllfeed then s else s.disarm)
  | .bad .writeCollision s => .bad .writeCollision s.disarm
  | .bad c s => .bad c s

/-- A read of a mapped register (20_memory.md R80). -/
def regRead (r : Reg) (s : State) : Access Word := .ok (regValue r s) (readEffect r s).disarm

/-- A write of a mapped register: refused if it has no meaning (20_memory.md R83). -/
def regWrite (r : Reg) (v : Word) (s : State) : Access Unit :=
  if r.accepts s.setup.params.profile v then feedAbort r (storeReg r v s) else .bad .unsupportedAccess s

/-- MemRead(addr, width) (00_scope.md R10; 20_memory.md R73, R79): `width` is in bytes. -/
def memRead (addr width : Nat) (s : State) : Access Word :=
  if accessAligned s.setup.params.addrBits addr width then
    match s.setup.params.profile.regAt addr with
    | some r => regRead r s
    | none => .bad .unsupportedAccess s
  else .bad .unsupportedAccess s

/-- MemWrite(addr, width, v) (00_scope.md R10; 20_memory.md R73, R79). -/
def memWrite (addr width : Nat) (v : Word) (s : State) : Access Unit :=
  if accessAligned s.setup.params.addrBits addr width then
    match s.setup.params.profile.regAt addr with
    | some r => regWrite r v s
    | none => .bad .unsupportedAccess s
  else .bad .unsupportedAccess s

/-! ### Micro-steps -/

/-- The micro-step `MemWrite(r, 4, v)`, then `k` (00_scope.md R10). -/
def microWrite (r : Reg) (v : Word) (k : State → State) (s : State) : Out :=
  match memWrite (s.setup.params.profile.addr r) 4 v s with
  | .ok _ t => .next (k t)
  | .bad c t => .next (t.raise c)

/-- The micro-step `t ← MemRead(r, 4)`, then `k` on the value read (00_scope.md R10). -/
def microRead (r : Reg) (k : Word → State → State) (s : State) : Out :=
  match memRead (s.setup.params.profile.addr r) 4 s with
  | .ok v t => .next (k v (t.setT v))
  | .bad c t => .next (t.raise c)

/-- Whether POLL_BUDGET is finite and `n` failed reads exhaust it (00_scope.md R11). -/
def budgetSpent (budget : Option Nat) (n : Nat) : Bool := budget == some n

/-- A failed poll read: poll_count grows; the poll's timeout code at the budget, else a spin (00_scope.md R11). -/
def State.pollFailed (c : Code) (s : State) : State :=
  let t := s.setPollCount (s.ctrl.pollCount + 1)
  if budgetSpent s.setup.params.pollBudget t.ctrl.pollCount then t.raise c else t

/-- The micro-step `POLL(r, bit)` (00_scope.md R11), with what follows success. -/
def poll (r : Reg) (bit : Nat) (c : Code) (k : State → State) (s : State) : Out :=
  microRead r
    (fun v t => if v.getLsbD bit then k (t.setPollCount 0) else t.pollFailed c) s

/-- FEED.f0 (40_clock.md R141). -/
def feedFirst (s : State) : Out :=
  microWrite .pllfeed (s.setup.params.profile.pllfeed.word s.setup.params.feedA) State.advance s

/-- FEED.f1, which commits, then `k` (40_clock.md R141). -/
def feedSecond (k : State → State) (s : State) : Out :=
  microWrite .pllfeed (s.setup.params.profile.pllfeed.word s.setup.params.feedB) k s

/-- XFER.x0: the byte is queued (41_serial.md R181). -/
def xferSend (tx : Byte) (s : State) : Out :=
  microWrite .spdr (s.setup.params.profile.spdr.word tx) State.advance s

/-- XFER.x1: POLL(SPSR, 7), the poll of SPIF (41_serial.md R181). -/
def xferAwait (s : State) : Out :=
  poll .spsr (s.setup.params.profile.spsr.place 0) .timeoutBus State.advance s

/-- XFER.x2 of the capturing form: `t ← MemRead(SPDR, 4); dst ← t[7:0]` (41_serial.md R181). -/
def xferCapture (dst : Byte → State → State) (s : State) : Out :=
  microRead .spdr (fun v t => (dst (s.setup.params.profile.spdr.value 8 v) t).advance) s

/-- IOSET0 ← CSM: chip-select high, then `k` (41_serial.md R192 to R195). -/
def csHigh (k : State → State) (s : State) : Out :=
  microWrite .ioset0 (s.setup.params.profile.ioset0.word (csm s.setup.params.csPin)) k s

/-- IOCLR0 ← CSM: chip-select low, then `k` (41_serial.md R193 to R195). -/
def csLow (k : State → State) (s : State) : Out :=
  microWrite .ioclr0 (s.setup.params.profile.ioclr0.word (csm s.setup.params.csPin)) k s

/-- The micro-steps of a frame that captures nothing (41_serial.md R194, R195): chip-select asserted at mpc 0, byte
k queued at mpc 2k + 1 and awaited at mpc 2k + 2, and chip-select released at the micro-step after the last byte's. -/
def sendFrame (assert release : State → Out) (bytes : List Byte) (s : State) : Out :=
  match s.ctrl.mpc with
  | 0 => assert s
  | j + 1 =>
    match bytes[j / 2]? with
    | some b => if j % 2 = 0 then xferSend b s else xferAwait s
    | none => if j = 2 * bytes.length then release s else .fault .noMicroStep

/-- The micro-steps of WRITE_REGISTER a, v (41_serial.md R194, 30_encoding.md R110). -/
def sciWrite (a : Byte) (v : Half) (s : State) : Out :=
  sendFrame (csLow State.advance) (csHigh (State.complete 1)) (sciWriteBytes s.setup.params a v) s

/-- The end of READ_REGISTER: RESULT and the result log take hi:lo (41_serial.md R193). -/
def State.finishRead (s : State) : State :=
  (s.giveResult (joinBytes s.ctrl.hi s.ctrl.lo)).complete 1

/-- The micro-steps of READ_REGISTER a, with its two captures (41_serial.md R193, 30_encoding.md R111). -/
def sciRead (a : Byte) (s : State) : Out :=
  match s.ctrl.mpc with
  | 0 => csLow State.advance s
  | 1 => xferSend s.setup.params.sciReadOp s
  | 2 => xferAwait s
  | 3 => xferSend a s
  | 4 => xferAwait s
  | 5 => xferSend s.setup.params.dummyByte s
  | 6 => xferAwait s
  | 7 => xferCapture State.setHi s
  | 8 => xferSend s.setup.params.dummyByte s
  | 9 => xferAwait s
  | 10 => xferCapture State.setLo s
  | 11 => csHigh State.finishRead s
  | _ => .fault .noMicroStep

/-- The micro-steps of SEND_COMMAND_SEQUENCE (41_serial.md R195, 30_encoding.md R112): chip-select active high. -/
def sdiSend (bytes : List Byte) (s : State) : Out :=
  sendFrame (csHigh State.advance) (csLow (State.complete 3)) (sdiBytes s.setup.params bytes) s

end Sys2Proof.Machine
end

