-- ==== Sys2Proof/Machine/Template.lean ====
section
/-! DEFINITION. The instruction-rule template of 00_scope.md R12: which instructions are host operations, the
precondition each checks before its first micro-step, how many micro-steps it has, the flags they write, their faults
and hangs, and the one shape of a meaning made of micro-steps. The operands are the constructor's, the encoding is
`encode`; FEED and XFER (feedFirst, feedSecond; xferSend, xferAwait, xferCapture) have neither, and are reached only
from the micro-steps of an operation. -/

namespace Sys2Proof.Machine

/-- The nine host operations (30_encoding.md R105); the other rows are wire frames. -/
def isOperation : Instr → Bool
  | .clkConfigure _ _ => true
  | .clkEnable => true
  | .clkAwaitLock => true
  | .clkSwitch => true
  | .clkTuneMem _ => true
  | .busConfig _ => true
  | .readRegister _ => true
  | .writeRegister _ _ => true
  | .sendCommandSequence _ _ _ _ _ _ _ _ => true
  | .sciWriteFrame _ _ => false
  | .sciReadFrame _ => false
  | .sdiCommandFrame _ _ _ _ _ _ _ _ => false
  | .sineTestCommand _ _ => false

/-- The requirement of the three transfer operations: S5_DONE and L1_READY (41_serial.md R180). -/
def linkReady (s : State) : Bool := s.clk.seqState == .s5Done && s.ser.linkState == .l1Ready

/-- The precondition of an operation (40_clock.md R140, 41_serial.md R180); a frame's is its operation's (log 13). -/
def precondition (i : Instr) (s : State) : Bool :=
  match i with
  | .clkConfigure _ _ => s.clk.seqState == .s0Reset
  | .clkEnable => s.clk.seqState == .s1Configured
  | .clkAwaitLock => s.clk.seqState == .s2Enabled
  | .clkSwitch => s.clk.seqState == .s3Locked
  | .clkTuneMem _ => s.clk.seqState == .s4Switched
  | .busConfig _ => s.clk.seqState == .s5Done && s.ser.linkState == .l0Unconfigured
  | .readRegister _ => linkReady s
  | .writeRegister _ _ => linkReady s
  | .sendCommandSequence _ _ _ _ _ _ _ _ => linkReady s
  | .sciWriteFrame _ _ => linkReady s
  | .sciReadFrame _ => linkReady s
  | .sdiCommandFrame _ _ _ _ _ _ _ _ => linkReady s
  | .sineTestCommand _ _ => linkReady s

/-- The length of an operation's micro-step list (40_clock.md R142 to R146, 41_serial.md R192 to R195). -/
def microSteps : Instr → Nat
  | .clkConfigure _ _ => 3
  | .clkEnable => 3
  | .clkAwaitLock => 1
  | .clkSwitch => 3
  | .clkTuneMem _ => 3
  | .busConfig _ => 7
  | .readRegister _ => 12
  | .writeRegister _ _ => 10
  | .sendCommandSequence _ _ _ _ _ _ _ _ => 18
  | .sciWriteFrame _ _ => 10
  | .sciReadFrame _ => 12
  | .sdiCommandFrame _ _ _ _ _ _ _ _ => 18
  | .sineTestCommand _ _ => 18

/-! ### Flags, faults and hangs -/

/-- What the rules' items "flags written" name (40_clock.md R142 to R146, 41_serial.md R192 to R195). -/
inductive Flag where
  | feedState
  | plock
  | pollCount
  | spif
  | wcol
  | spifArmed
  | busy
  deriving DecidableEq, Repr

/-- The flag has the same value in both states. -/
def Flag.Kept (f : Flag) (s t : State) : Prop :=
  match f with
  | .feedState => t.clk.feedState = s.clk.feedState
  | .plock => t.clk.plock = s.clk.plock
  | .pollCount => t.ctrl.pollCount = s.ctrl.pollCount
  | .spif => t.ser.spif = s.ser.spif
  | .wcol => t.ser.wcol = s.ser.wcol
  | .spifArmed => t.ser.spifArmed = s.ser.spifArmed
  | .busy => t.ser.busy = s.ser.busy

/-- The flags an XFER writes (41_serial.md R181), its polls' count among them (00_scope.md R11). -/
def xferFlags : List Flag := [.spif, .wcol, .spifArmed, .busy, .pollCount]

/-- The flags an operation's rule says it writes; a frame's are its operation's (log 13). -/
def flagsWritten : Instr → List Flag
  | .clkConfigure _ _ => [.feedState, .plock]
  | .clkEnable => [.feedState]
  | .clkAwaitLock => [.pollCount]
  | .clkSwitch => [.feedState]
  | .clkTuneMem _ => []
  | .busConfig _ => []
  | .readRegister _ => xferFlags
  | .writeRegister _ _ => xferFlags
  | .sendCommandSequence _ _ _ _ _ _ _ _ => xferFlags
  | .sciWriteFrame _ _ => xferFlags
  | .sciReadFrame _ => xferFlags
  | .sdiCommandFrame _ _ _ _ _ _ _ _ => xferFlags
  | .sineTestCommand _ _ => xferFlags

/-- The timeout code of an operation's polls; an operation without a poll neither times out nor hangs. -/
def pollCode : Instr → Option Code
  | .clkConfigure _ _ => none
  | .clkEnable => none
  | .clkAwaitLock => some .timeoutLock
  | .clkSwitch => none
  | .clkTuneMem _ => none
  | .busConfig _ => none
  | .readRegister _ => some .timeoutBus
  | .writeRegister _ _ => some .timeoutBus
  | .sendCommandSequence _ _ _ _ _ _ _ _ => some .timeoutBus
  | .sciWriteFrame _ _ => some .timeoutBus
  | .sciReadFrame _ => some .timeoutBus
  | .sdiCommandFrame _ _ _ _ _ _ _ _ => some .timeoutBus
  | .sineTestCommand _ _ => some .timeoutBus

/-- The faults an operation's rule lists: ILLEGAL_OP, which its words raise before it is one, ORDER, and its polls'
timeout. -/
def faultCodes (i : Instr) : List Code := .illegalOp :: .order :: (pollCode i).toList

/-- The operation can hang: it has a poll (60_exceptions.md R235). -/
def hangs (i : Instr) : Bool := (pollCode i).isSome

/-! ### The shape of a meaning -/

/-- A precondition is checked at mpc = 0, before any effect; where it fails the fault is ORDER (40_clock.md R140,
41_serial.md R180). -/
def ordered (ready : Bool) (s : State) (body : Out) : Out :=
  if s.ctrl.mpc = 0 ∧ ready = false then .next (s.raise .order) else body

/-- A meaning by the template: the operation's precondition, then its current micro-step. -/
def operation (i : Instr) (micro : State → Out) (s : State) : Out := ordered (precondition i s) s (micro s)

end Sys2Proof.Machine
end

