-- ==== Sys2Proof/Machine/Clock.lean ====
section
/-! DEFINITION. The Clock Bring-up Sequencer's operations (40_clock.md R140 to R146), one micro-step at a time. -/

namespace Sys2Proof.Machine

/-- The end of a clock operation: the sequencer advances to `q` and the operation completes (40_clock.md R140). -/
def State.finishClock (q : SeqState) (s : State) : State := (s.setSeq q).complete 1

/-- CLK_CONFIGURE m, p (40_clock.md R142). -/
def execClkConfigure (m : BitVec 5) (p : BitVec 2) (s : State) : Out :=
  operation (.clkConfigure m p) (fun s =>
    match s.ctrl.mpc with
    | 0 => microWrite .pllcfg (s.setup.params.profile.pllcfg.word (pllcfgValue m p)) State.advance s
    | 1 => feedFirst s
    | 2 => feedSecond (State.finishClock .s1Configured) s
    | _ => .fault .noMicroStep) s

/-- CLK_ENABLE (40_clock.md R143). -/
def execClkEnable (s : State) : Out :=
  operation .clkEnable (fun s =>
    match s.ctrl.mpc with
    | 0 => microWrite .pllcon (s.setup.params.profile.pllcon.word pllconEnable) State.advance s
    | 1 => feedFirst s
    | 2 => feedSecond (State.finishClock .s2Enabled) s
    | _ => .fault .noMicroStep) s

/-- CLK_AWAIT_LOCK (40_clock.md R144): one micro-step, POLL(PLLSTAT, 10), repeated until PLOCK is read 1. -/
def execClkAwaitLock (s : State) : Out :=
  operation .clkAwaitLock (fun s =>
    match s.ctrl.mpc with
    | 0 => poll .pllstat (s.setup.params.profile.pllstat.place 9) .timeoutLock (State.finishClock .s3Locked) s
    | _ => .fault .noMicroStep) s

/-- CLK_SWITCH (40_clock.md R145). -/
def execClkSwitch (s : State) : Out :=
  operation .clkSwitch (fun s =>
    match s.ctrl.mpc with
    | 0 => microWrite .pllcon (s.setup.params.profile.pllcon.word pllconConnect) State.advance s
    | 1 => feedFirst s
    | 2 => feedSecond (State.finishClock .s4Switched) s
    | _ => .fault .noMicroStep) s

/-- CLK_TUNE_MEM n (40_clock.md R146). -/
def execClkTuneMem (n : BitVec 3) (s : State) : Out :=
  operation (.clkTuneMem n) (fun s =>
    match s.ctrl.mpc with
    | 0 => microWrite .mamtim (s.setup.params.profile.mamtim.word n) State.advance s
    | 1 => microWrite .mamcr (s.setup.params.profile.mamcr.word s.setup.params.mamMode) State.advance s
    | 2 =>
      microWrite .vpbdiv (s.setup.params.profile.vpbdiv.word s.setup.params.vpbdivCode)
        (State.finishClock .s5Done) s
    | _ => .fault .noMicroStep) s

end Sys2Proof.Machine
end

