-- ==== Sys2Proof/Machine/Serial.lean ====
section
/-! DEFINITION. The Serial Control/Data Link's operations (41_serial.md R192 to R195), one micro-step at a time. -/

namespace Sys2Proof.Machine

/-- The end of BUS_CONFIG (41_serial.md R192). -/
def State.finishBusConfig (s : State) : State := (s.setLink .l1Ready).complete 1

/-- BUS_CONFIG d (41_serial.md R192). -/
def execBusConfig (d : Byte) (s : State) : Out :=
  operation (.busConfig d) (fun s =>
    match s.ctrl.mpc with
    | 0 => microRead .pinsel0 (fun _ t => t.advance) s
    | 1 => microWrite .pinsel0 (pinselWord s.setup.params s.ctrl.t) State.advance s
    | 2 => microWrite .spccr (s.setup.params.profile.spccr.word d) State.advance s
    | 3 => microWrite .spcr (s.setup.params.profile.spcr.word spcrValue) State.advance s
    | 4 => csHigh State.advance s
    | 5 => microRead .iodir0 (fun _ t => t.advance) s
    | 6 => microWrite .iodir0 (iodirWord s.setup.params s.ctrl.t) State.finishBusConfig s
    | _ => .fault .noMicroStep) s

/-- READ_REGISTER a (41_serial.md R193). -/
def execReadRegister (a : Byte) (s : State) : Out := operation (.readRegister a) (sciRead a) s

/-- WRITE_REGISTER a, v (41_serial.md R194). -/
def execWriteRegister (a : Byte) (v : Half) (s : State) : Out := operation (.writeRegister a v) (sciWrite a v) s

/-- SEND_COMMAND_SEQUENCE b0, …, b7 (41_serial.md R195). -/
def execSendCommandSequence (b0 b1 b2 b3 b4 b5 b6 b7 : Byte) (s : State) : Out :=
  operation (.sendCommandSequence b0 b1 b2 b3 b4 b5 b6 b7) (sdiSend [b0, b1, b2, b3, b4, b5, b6, b7]) s

end Sys2Proof.Machine
end

