-- ==== Sys2Proof/Machine/Wire.lean ====
section
/-! DEFINITION. The wire frames (30_encoding.md R110 to R113). A frame goes on the wire only as the micro-steps of the
operation that emits it, so its meaning is that operation's current micro-step. DESIGN CHOICE (log 13, safe). -/

namespace Sys2Proof.Machine

/-- SCI_WRITE_FRAME, emitted by WRITE_REGISTER (30_encoding.md R110). -/
def execSciWriteFrame (a : Byte) (v : Half) (s : State) : Out := operation (.sciWriteFrame a v) (sciWrite a v) s

/-- SCI_READ_FRAME, emitted by READ_REGISTER (30_encoding.md R111). -/
def execSciReadFrame (a : Byte) (s : State) : Out := operation (.sciReadFrame a) (sciRead a) s

/-- SDI_COMMAND_FRAME, emitted by SEND_COMMAND_SEQUENCE (30_encoding.md R112). -/
def execSdiCommandFrame (b0 b1 b2 b3 b4 b5 b6 b7 : Byte) (s : State) : Out :=
  operation (.sdiCommandFrame b0 b1 b2 b3 b4 b5 b6 b7) (sdiSend [b0, b1, b2, b3, b4, b5, b6, b7]) s

/-- SINE_TEST_COMMAND, the tone form of the SDI frame (30_encoding.md R113). -/
def execSineTestCommand (p1 p2 : Byte) (s : State) : Out :=
  operation (.sineTestCommand p1 p2) (sdiSend (toneBytes p1 p2)) s

end Sys2Proof.Machine
end

