-- ==== Sys2Proof/Machine/Dispatch.lean ====
section
/-! DEFINITION. exec: one arm per constructor of Instr, each a direct call of its meaning. exec is CTRL's next
micro-step of the instruction (00_scope.md R5). -/

namespace Sys2Proof.Machine

def exec (i : Instr) (s : State) : Host.Outcome State Fault Refusal :=
  match i with
  | .clkConfigure m p => Sys2Proof.Machine.execClkConfigure m p s
  | .clkEnable => Sys2Proof.Machine.execClkEnable s
  | .clkAwaitLock => Sys2Proof.Machine.execClkAwaitLock s
  | .clkSwitch => Sys2Proof.Machine.execClkSwitch s
  | .clkTuneMem n => Sys2Proof.Machine.execClkTuneMem n s
  | .busConfig d => Sys2Proof.Machine.execBusConfig d s
  | .readRegister a => Sys2Proof.Machine.execReadRegister a s
  | .writeRegister a v => Sys2Proof.Machine.execWriteRegister a v s
  | .sendCommandSequence b0 b1 b2 b3 b4 b5 b6 b7 => Sys2Proof.Machine.execSendCommandSequence b0 b1 b2 b3 b4 b5 b6 b7 s
  | .sciWriteFrame a v => Sys2Proof.Machine.execSciWriteFrame a v s
  | .sciReadFrame a => Sys2Proof.Machine.execSciReadFrame a s
  | .sdiCommandFrame b0 b1 b2 b3 b4 b5 b6 b7 => Sys2Proof.Machine.execSdiCommandFrame b0 b1 b2 b3 b4 b5 b6 b7 s
  | .sineTestCommand p1 p2 => Sys2Proof.Machine.execSineTestCommand p1 p2 s

end Sys2Proof.Machine
end

