-- ==== Sys2Proof/Machine/Agents.lean ====
section
/-! DEFINITION. The agents of 00_scope.md R6: when each is enabled, the step each takes, and which one moves
(60_exceptions.md R240, 40_clock.md R161, 41_serial.md R187). -/

namespace Sys2Proof.Machine

/-! ### The agents' own steps -/

/-- CTRL takes steps only in RUN (10_state.md R25). -/
def ctrlEnabled (s : State) : Bool := s.ctrl.status == .run

/-- The PLL's lock step is enabled (40_clock.md R160). -/
def pllEnabled (s : State) : Bool := s.clk.pllconAct.getLsbD 0 && !s.clk.plock

/-- The SHIFTER's completion step is enabled (41_serial.md R186). -/
def shifterEnabled (s : State) : Bool := s.ser.busy && s.ser.spcr.getLsbD 5

/-- The words from op_pc on (10_state.md R23). -/
def fetch (s : State) : List Word := s.setup.program.drop s.ctrl.opPc

/-- CTRL's step: the operation at op_pc is decoded, ILLEGAL_OP if it spells none (30_encoding.md R107, log 19), and
its current micro-step runs; out of RUN it does nothing (log 21). -/
def ctrlStep (s : State) : Out :=
  if ctrlEnabled s then
    match decode (fetch s) with
    | .ok i _ => exec i s
    | .reject _ => .next (s.raise .illegalOp)
  else .next s

/-- The PLL's lock step (40_clock.md R160). -/
def pllStep (s : State) : State := { s with clk := s.clk.lock }

/-- The SHIFTER's completion step (41_serial.md R186). -/
def shifterStep (s : State) : State :=
  let a := s.env.dev.answer s.setup.params s.env.trace s.ser.spdrTx s.csLevel s.draws
  { s with
    ser := s.ser.finish a.1
    env :=
      { s.env with
        dev := a.2
        trace := s.env.trace ++ [.xchg s.ser.spdrTx a.1 s.csLatch s.ctrl.opPc] }
    draws := s.draws + 1 }

/-- The step of one agent. -/
def agentStep (a : Agent) (s : State) : Out :=
  match a with
  | .pll => .next (pllStep s)
  | .shifter => .next (shifterStep s)
  | .ctrl => ctrlStep s

/-! ### Who moves -/

/-- The PLL has been passed over as often as a fair PLL may be (40_clock.md R161, log 5). -/
def lockOverdue (s : State) : Bool :=
  pllEnabled s && s.setup.params.lockFair && inBand s.setup.params s.clk.pllcfgAct &&
    decide (Config.lockPatience ≤ s.moves.pllWait)

/-- The SHIFTER has been passed over as often as a fair SHIFTER may be (41_serial.md R187, log 5). -/
def shiftOverdue (s : State) : Bool :=
  shifterEnabled s && s.setup.params.shiftFair && decide (Config.shiftPatience ≤ s.moves.shiftWait)

/-- The agent chosen, or CTRL if it is not enabled. -/
def grant (s : State) (a : Agent) : Agent :=
  match a with
  | .pll => if pllEnabled s then .pll else .ctrl
  | .shifter => if shifterEnabled s then .shifter else .ctrl
  | .ctrl => .ctrl

/-- Whether PLL or SHIFTER could move. -/
def hardwareEnabled (s : State) : Bool := pllEnabled s || shifterEnabled s

/-- The agent that moves: CTRL where only CTRL can; else the script's next agent and, past the script's end, an
overdue agent or a free choice (log 4, 5). None where no agent is enabled. -/
def mover (s : State) : Option Agent :=
  if hardwareEnabled s then
    match s.moves.script with
    | a :: _ => some (grant s a)
    | [] =>
      if lockOverdue s then some .pll
      else if shiftOverdue s then some .shifter
      else some (grant s (Config.freeAgent s.moves.tick))
  else if ctrlEnabled s then some .ctrl else none

/-- The steps in a row an agent was enabled and passed over, after a step. -/
def waited (enabled moved : Bool) (n : Nat) : Nat := if enabled && !moved then n + 1 else 0

/-- The scheduling fields after the agent `a` has moved from `s`. -/
def movesAfter (a : Agent) (s : State) : Moves :=
  { script := s.moves.script.tail
    tick := s.moves.tick + 1
    pllWait := waited (pllEnabled s) (a == .pll) s.moves.pllWait
    shiftWait := waited (shifterEnabled s) (a == .shifter) s.moves.shiftWait }

/-- What a step leaves once the agent `a` has moved from `s` with outcome `o`. -/
def settle (a : Agent) (s : State) (o : Out) : Out :=
  match o with
  | .next t => .next { t with moves := movesAfter a s }
  | .fault r => .fault r
  | .refused r => .refused r

/-- The stop of a machine in which no agent is enabled (10_state.md R25, 70_reset_and_hazards.md R264, log 7). -/
def halted (s : State) : Out :=
  match s.ctrl.status with
  | .faulted => .fault (.ctrlStopped s.env.fault)
  | .ended => .fault .runEnded
  | .run => .fault .runEnded

/-- One step of the machine: exactly one agent moves (60_exceptions.md R240). -/
def machineStep (s : State) : Out :=
  match mover s with
  | some a => settle a s (agentStep a s)
  | none => halted s

/-! ### Loading one operation -/

/-- The state with an operation's words placed at op_pc, to be begun by CTRL at the very next step (log 2, 14). -/
def loadWords (ws : List Word) (s : State) : State :=
  { s with
    ctrl := { s.ctrl with mpc := 0, status := .run }
    setup := { s.setup with program := placeWords ws s.ctrl.opPc s.setup.program }
    moves := { s.moves with script := .ctrl :: s.moves.script } }

/-! ### Resetting -/

/-- Reset of a machine in any state: every field as in R55, the program and the parameters, DEVICE among them, kept
(70_reset_and_hazards.md R260, 10_state.md R20). An outside event, never a step: END and FAULTED are left only by
it (10_state.md R25). -/
def State.restart (s : State) : State := State.boot s.setup s.env.dev.device

end Sys2Proof.Machine
end

