-- ==== Sys2Proof/Machine/Step.lean ====
section
/-! DEFINITION. The one step of the machine, and the load of one operation by its number in the opcode table. -/

namespace Sys2Proof.Machine

/-- One step: exactly one agent moves (60_exceptions.md R240). -/
def step (s : State) : Host.Outcome State Fault Refusal := machineStep s

/-- The state with a table row's instruction stored where CTRL fetches its next operation, so that the next step is
CTRL's and runs it. A wire frame is stored as the operation that emits it (log 2, 14). -/
def State.withFetchWord (s : State) (nbits w : Nat) : State := loadWords (fetchWords nbits w) s

end Sys2Proof.Machine
end

