-- ==== Sys2Proof/Safety.lean ====
section
/-! DEFINITION. The terms the claims use: whole operations as runs of micro-steps, what each operation requires and
puts on the wire, and the invariants of the machine (40_clock.md section 5, 41_serial.md section 5,
70_reset_and_hazards.md section 3). -/

namespace Sys2Proof.Machine

/-! ### Operations -/

/-- The operation CTRL is executing, if the words at op_pc spell one. -/
def opAt (s : State) : Option Instr :=
  match decode (fetch s) with
  | .ok i _ => some i
  | .reject _ => none

/-- CTRL is running the operation `i`. -/
def Runs (i : Instr) (s : State) : Prop := s.ctrl.status = .run ∧ opAt s = some i

/-- The words an operation takes in the program (30_encoding.md R104); a frame's are its operation's. -/
def opWords (i : Instr) : Nat := (hostWords i).length

/-- The micro-step `mpc` of the operation is a poll of SPSR (XFER.x1, 41_serial.md R181, R193 to R195). -/
def awaiting (i : Instr) (mpc : Nat) : Bool :=
  match i with
  | .clkConfigure _ _ => false
  | .clkEnable => false
  | .clkAwaitLock => false
  | .clkSwitch => false
  | .clkTuneMem _ => false
  | .busConfig _ => false
  | .readRegister _ => mpc == 2 || mpc == 4 || mpc == 6 || mpc == 9
  | .writeRegister _ _ => mpc % 2 == 0 && decide (2 ≤ mpc) && decide (mpc ≤ 8)
  | .sendCommandSequence _ _ _ _ _ _ _ _ => mpc % 2 == 0 && decide (2 ≤ mpc) && decide (mpc ≤ 16)
  | .sciWriteFrame _ _ => mpc % 2 == 0 && decide (2 ≤ mpc) && decide (mpc ≤ 8)
  | .sciReadFrame _ => mpc == 2 || mpc == 4 || mpc == 6 || mpc == 9
  | .sdiCommandFrame _ _ _ _ _ _ _ _ => mpc % 2 == 0 && decide (2 ≤ mpc) && decide (mpc ≤ 16)
  | .sineTestCommand _ _ => mpc % 2 == 0 && decide (2 ≤ mpc) && decide (mpc ≤ 16)

/-- The bytes an operation or a frame sends, in order (30_encoding.md R110 to R113); none if it sends no frame. -/
def frameBytes (par : Params) (i : Instr) : List Byte :=
  match carrier i with
  | .readRegister a => sciReadBytes par a
  | .writeRegister a v => sciWriteBytes par a v
  | .sendCommandSequence b0 b1 b2 b3 b4 b5 b6 b7 => sdiBytes par [b0, b1, b2, b3, b4, b5, b6, b7]
  | _ => []

/-- The operation sends a frame (41_serial.md R193 to R195). -/
def sendsFrame (i : Instr) : Bool :=
  match carrier i with
  | .readRegister _ => true
  | .writeRegister _ _ => true
  | .sendCommandSequence _ _ _ _ _ _ _ _ => true
  | _ => false

/-- The chip-select level that asserts the operation's frame: low for SCI, high for SDI (41_serial.md R198). -/
def frameCs (i : Instr) : Bool :=
  match carrier i with
  | .sendCommandSequence _ _ _ _ _ _ _ _ => true
  | _ => false

/-- How many bytes have been queued before the micro-step `mpc` (41_serial.md R193 to R195). -/
def queued (par : Params) (i : Instr) (mpc : Nat) : Nat :=
  match carrier i with
  | .readRegister _ => if mpc ≤ 7 then min (mpc / 2) 3 else if mpc = 8 then 3 else 4
  | _ => min (mpc / 2) (frameBytes par i).length

/-- How many of the frame's exchanges have completed. -/
def exchanged (i : Instr) (s : State) : Nat :=
  queued s.setup.params i s.ctrl.mpc - if s.ser.busy then 1 else 0

/-- The XCHG events of the bytes sent with the bytes received (10_state.md R50). -/
def exchanges (tx rx : List Byte) (cs : Bool) (op : Nat) : List Event :=
  List.zipWith (fun t r => .xchg t r cs op) tx rx

/-- A whole frame with its select-assert and select-deassert (20_memory.md R76). -/
def wholeFrame (par : Params) (i : Instr) (rx : List Byte) (op : Nat) : List Event :=
  .cs (frameCs i) op :: exchanges (frameBytes par i) rx (frameCs i) op ++ [.cs (!frameCs i) op]

/-! ### Whole operations -/

/-- `n` micro-steps of CTRL executing `i`, no other agent moving. -/
def ctrlRun (i : Instr) : Nat → State → Out
  | 0, s => .next s
  | n + 1, s =>
    match exec i s with
    | .next t => ctrlRun i n t
    | .fault r => .fault r
    | .refused r => .refused r

/-- A transfer in flight completes. -/
def deliver (s : State) : State := if shifterEnabled s then shifterStep s else s

/-- `n` micro-steps of CTRL executing `i`, each transfer completing as soon as it has started. -/
def linkRun (i : Instr) : Nat → State → Out
  | 0, s => .next s
  | n + 1, s =>
    match exec i s with
    | .next t => linkRun i n (deliver t)
    | .fault r => .fault r
    | .refused r => .refused r

/-! ### Micro-steps of the transfer operations (41_serial.md R181, R193 to R195) -/

/-- CTRL after a micro-step that is not an operation's last. -/
def Ctrl.next (c : Ctrl) : Ctrl := { c with mpc := c.mpc + 1 }

/-- Micro-step `k` of `i` drives chip-select to `level` with its event, then `after`, whenever no transfer is in
flight (41_serial.md R190). -/
def DrivesCs (i : Instr) (k : Nat) (level : Bool) (after : State → State) : Prop :=
  ∀ s : State, s.setup.params.Legal → s.ctrl.mpc = k → s.ser.busy = false → (k = 0 → precondition i s = true) →
    exec i s = .next (after { s with
      clk := { s.clk with feedState := .idle }
      ser := { s.ser with iolatch0 :=
        if level then s.ser.iolatch0 ||| csm s.setup.params.csPin
        else s.ser.iolatch0 &&& ~~~csm s.setup.params.csPin }
      env := { s.env with trace := s.env.trace ++ [.cs level s.ctrl.opPc] } })

/-- Micro-step `k` of `i` is XFER.x0 of the byte that `b` makes of the parameters: armed flags are cleared and the
transfer starts, whenever none is in flight (41_serial.md R181, R182, R185). -/
def QueuesByte (i : Instr) (k : Nat) (b : Params → Byte) : Prop :=
  ∀ s : State, s.setup.params.Legal → s.ctrl.mpc = k → s.ser.busy = false →
    exec i s = .next { s with
      ctrl := s.ctrl.next
      clk := { s.clk with feedState := .idle }
      ser := { s.ser with
        spif := s.ser.spif && !s.ser.spifArmed
        wcol := s.ser.wcol && !s.ser.spifArmed
        spifArmed := false
        spdrTx := b s.setup.params
        busy := true } }

/-- The state a poll read of SPSR leaves before CTRL moves (41_serial.md R184). -/
def afterSpsrRead (s : State) : State :=
  { s with
    ctrl := { s.ctrl with t := s.setup.params.profile.spsr.read s.ser.spsr }
    clk := { s.clk with feedState := .idle }
    ser := { s.ser with spifArmed := s.ser.spifArmed || s.ser.spif || s.ser.wcol } }

/-- A failed poll read, after the read: poll_count grows, and at a finite POLL_BUDGET the timeout code is raised
(00_scope.md R11). -/
def afterFailedRead (c : Code) (s : State) : State :=
  let t : State := { s with ctrl := { s.ctrl with pollCount := s.ctrl.pollCount + 1 } }
  if s.setup.params.pollBudget = some (s.ctrl.pollCount + 1) then
    { t with
      ctrl := { t.ctrl with status := .faulted }
      env := { t.env with fault := some { code := c, opPc := t.ctrl.opPc } } }
  else t

/-- Micro-step `k` of `i` is XFER.x1: it goes on when SPSR reads SPIF 1, and otherwise spins or times out
(41_serial.md R181, 00_scope.md R11). -/
def AwaitsByte (i : Instr) (k : Nat) : Prop :=
  ∀ s : State, s.setup.params.Legal → s.ctrl.mpc = k →
    exec i s = .next (
      if s.ser.spif then
        { afterSpsrRead s with ctrl := { (afterSpsrRead s).ctrl with pollCount := 0, mpc := s.ctrl.mpc + 1 } }
      else afterFailedRead .timeoutBus (afterSpsrRead s))

/-- Micro-step `k` of `i` is XFER.x2: SPDR is read, which clears armed flags, and `dst` takes the byte
(41_serial.md R181, R183, R185). -/
def CapturesByte (i : Instr) (k : Nat) (dst : Byte → Ctrl → Ctrl) : Prop :=
  ∀ s : State, s.setup.params.Legal → s.ctrl.mpc = k →
    exec i s = .next { s with
      ctrl := dst s.ser.spdrRx { s.ctrl with
        t := s.setup.params.profile.spdr.read s.ser.spdrRx
        mpc := s.ctrl.mpc + 1 }
      clk := { s.clk with feedState := .idle }
      ser := { s.ser with
        spif := s.ser.spif && !s.ser.spifArmed
        wcol := s.ser.wcol && !s.ser.spifArmed
        spifArmed := false } }

/-- An operation's end (10_state.md R23, R24): op_pc advances by its length, mpc is 0, and at the program's end the
status is END. -/
def atEnd (len : Nat) (s : State) : State :=
  { s with
    ctrl := { s.ctrl with
      opPc := s.ctrl.opPc + len
      mpc := 0
      status := if s.ctrl.opPc + len = s.setup.program.length then .ended else s.ctrl.status } }

/-- CTRL moves on to the next micro-step. -/
def nextMicroStep (s : State) : State := { s with ctrl := s.ctrl.next }

/-- The state `Fault(code)` leaves (60_exceptions.md R232). -/
def stoppedBy (c : Code) (s : State) : State :=
  { s with
    ctrl := { s.ctrl with status := .faulted }
    env := { s.env with fault := some { code := c, opPc := s.ctrl.opPc } } }

/-- Begun out of S5_DONE or L1_READY the operation raises ORDER and has no other effect (41_serial.md R180). -/
def NeedsLink (i : Instr) : Prop :=
  ∀ s : State, s.ctrl.mpc = 0 → s.clk.seqState ≠ .s5Done ∨ s.ser.linkState ≠ .l1Ready →
    exec i s = .next (stoppedBy .order s)

/-- `i` runs as the twelve micro-steps of READ_REGISTER a (41_serial.md R193, 30_encoding.md R111). -/
def ReadSteps (a : Byte) (i : Instr) : Prop :=
  NeedsLink i ∧ DrivesCs i 0 false nextMicroStep ∧
    QueuesByte i 1 Params.sciReadOp ∧ AwaitsByte i 2 ∧ QueuesByte i 3 (fun _ => a) ∧ AwaitsByte i 4 ∧
    QueuesByte i 5 Params.dummyByte ∧ AwaitsByte i 6 ∧ CapturesByte i 7 (fun b c => { c with hi := b }) ∧
    QueuesByte i 8 Params.dummyByte ∧ AwaitsByte i 9 ∧ CapturesByte i 10 (fun b c => { c with lo := b }) ∧
    DrivesCs i 11 true (fun s => atEnd 1 { s with
      ctrl := { s.ctrl with result := s.ctrl.hi ++ s.ctrl.lo }
      env := { s.env with results := s.env.results ++ [s.ctrl.hi ++ s.ctrl.lo] } })

/-- `i` runs as the ten micro-steps of WRITE_REGISTER a, v (41_serial.md R194, 30_encoding.md R110). -/
def WriteSteps (a : Byte) (v : Half) (i : Instr) : Prop :=
  NeedsLink i ∧ DrivesCs i 0 false nextMicroStep ∧
    QueuesByte i 1 Params.sciWriteOp ∧ AwaitsByte i 2 ∧ QueuesByte i 3 (fun _ => a) ∧ AwaitsByte i 4 ∧
    QueuesByte i 5 (fun _ => v.extractLsb' 8 8) ∧ AwaitsByte i 6 ∧
    QueuesByte i 7 (fun _ => v.extractLsb' 0 8) ∧ AwaitsByte i 8 ∧
    DrivesCs i 9 true (atEnd 1)

/-- `i` runs as the eighteen micro-steps of SEND_COMMAND_SEQUENCE with these eight bytes, two micro-steps each, in
order (41_serial.md R195, 30_encoding.md R112). -/
def SendSteps (bytes : List Byte) (i : Instr) : Prop :=
  NeedsLink i ∧ DrivesCs i 0 true nextMicroStep ∧
    (∀ k b, bytes[k]? = some b → QueuesByte i (2 * k + 1) (fun _ => b) ∧ AwaitsByte i (2 * k + 2)) ∧
    DrivesCs i 17 false (atEnd 3)

/-- A micro-step of `i` from `s` to `t` does what the items of its rule's template admit (00_scope.md R12): no flag but
those it writes changes, a fault is one it lists, and only an operation that can hang stays at a micro-step. -/
def KeepsToTemplate (i : Instr) (s t : State) : Prop :=
  (∀ f, f ∉ flagsWritten i → f.Kept s t) ∧
    (t.ctrl.status = .faulted → ∃ c ∈ faultCodes i, t.env.fault = some { code := c, opPc := s.ctrl.opPc }) ∧
    (t.ctrl.status = .run → t.ctrl.opPc = s.ctrl.opPc → t.ctrl.mpc = s.ctrl.mpc → hangs i = true)

/-! ### Invariants -/

/-- The rank of a sequencer state (10_state.md R35). -/
def SeqState.rank : SeqState → Nat
  | .s0Reset => 0
  | .s1Configured => 1
  | .s2Enabled => 2
  | .s3Locked => 3
  | .s4Switched => 4
  | .s5Done => 5

/-- No register holds a code its layout calls reserved or its rule refuses (10_state.md R26 to R38); SPCR and SPCCR may
still hold what reset left. -/
def RegistersLegal (s : State) : Prop :=
  let P := s.setup.params.profile
  P.mamcr.codes.has s.clk.mamcr = true ∧ P.mamtim.codes.has s.clk.mamtim = true ∧
    P.vpbdiv.codes.has s.clk.vpbdiv = true ∧
    (s.ser.spcr = P.reset.spcr ∨ P.spcr.codes.has s.ser.spcr = true) ∧
    (s.ser.spccr = P.reset.spccr ∨ P.spccr.codes.has s.ser.spccr = true) ∧
    P.pllcon.codes.has s.clk.pllconHold = true ∧ P.pllcon.codes.has s.clk.pllconAct = true ∧
    P.pllcfg.codes.has s.clk.pllcfgHold = true ∧ P.pllcfg.codes.has s.clk.pllcfgAct = true

/-- PLOCK is 1 only while PLLE is active (40_clock.md R152, R160). -/
def LockNeedsEnable (s : State) : Prop := s.clk.plock = true → s.clk.pllconAct.getLsbD 0 = true

/-- FAULTED exactly when a fault is recorded (10_state.md R25, R52). -/
def FaultRecorded (s : State) : Prop := s.ctrl.status = .faulted ↔ s.env.fault.isSome = true

/-- CLK_ENABLE or CLK_SWITCH has written PLLCON and its feed has not committed it yet. -/
def pllconPending (i : Instr) (mpc : Nat) : Option (BitVec 2) :=
  match i with
  | .clkEnable => if mpc = 0 then none else some 1#2
  | .clkSwitch => if mpc = 0 then none else some 3#2
  | _ => none

/-- CLK_CONFIGURE has written PLLCFG and its feed has not committed it yet. -/
def pllcfgPending (i : Instr) (mpc : Nat) : Option (BitVec 7) :=
  match i with
  | .clkConfigure m p => if mpc = 0 then none else some (p ++ m)
  | _ => none

/-- The next micro-step is FEED.f1 (40_clock.md R141 to R145). -/
def feedPending (i : Instr) (mpc : Nat) : Bool :=
  match i with
  | .clkConfigure _ _ => mpc == 2
  | .clkEnable => mpc == 2
  | .clkSwitch => mpc == 2
  | _ => false

/-- What CTRL is executing and where; `none` while it runs nothing. -/
def position (s : State) : Option (Instr × Nat) :=
  if s.ctrl.status = .run then (opAt s).map fun i => (i, s.ctrl.mpc) else none

/-- CTRL's micro-step index is one of the operation's, and past the first micro-step the operation's precondition still
holds (10_state.md R24; 40_clock.md R140; 41_serial.md R180). -/
def CtrlInv (s : State) : Prop :=
  match position s with
  | some (i, mpc) => mpc < microSteps i ∧ (mpc ≠ 0 → precondition i s = true)
  | none => s.ctrl.status = .run → s.ctrl.mpc = 0

/-- The clock unit follows the sequencer, CTRL being at `pos`: the feed is armed exactly before FEED.f1 (40_clock.md
R157); the holding copies differ from the active ones only between a write and its commit (R149); PLLCON_act is what
the sequencer's state says (R142 to R145); no lock before CLK_ENABLE's commit (R159) and lock from S3 on (R152,
R153); the memory accelerator is off until CLK_TUNE_MEM (R146). -/
def ClockAt (pos : Option (Instr × Nat)) (c : Clk) : Prop :=
  (c.feedState = .armed ↔ pos.any (fun p => feedPending p.1 p.2) = true) ∧
    c.pllconHold = (pos.bind fun p => pllconPending p.1 p.2).getD c.pllconAct ∧
    c.pllcfgHold = (pos.bind fun p => pllcfgPending p.1 p.2).getD c.pllcfgAct ∧
    c.pllconAct = (if c.seqState.rank < 2 then 0#2 else if c.seqState.rank < 4 then 1#2 else 3#2) ∧
    (c.plock = true → 2 ≤ c.seqState.rank) ∧
    (3 ≤ c.seqState.rank → c.plock = true) ∧
    (c.seqState.rank < 4 → c.mamcr = 0#2)

/-- The clock unit's invariant. -/
def ClockInv (s : State) : Prop := ClockAt (position s) s.clk

/-- The serial unit follows the link, CTRL being at `pos`: from L1 on the clock is done, the port is master and the
chip-select pin an output (41_serial.md R180, R192); before it nothing has been transferred; WCOL is never set
(10_state.md R42); a transfer is in flight only at the poll that awaits it, where busy is the complement of SPIF, and
everywhere else SPIF is set exactly if it is armed, so no poll can see a stale SPIF (R181, R199,
70_reset_and_hazards.md R267, R273), except that a timeout leaves the transfer it waited for; chip-select stays
asserted through a frame (41_serial.md R196, R198); BUS_CONFIG has made the port master before it drives the pin
(R192). -/
def LinkAt (pin : Fin 32) (pos : Option (Instr × Nat)) (status : Status) (q : SeqState) (r : Ser) : Prop :=
  (r.linkState = .l1Ready → q = .s5Done ∧ r.spcr = 0x20#8 ∧ csBit pin r.iodir0 = true) ∧
    (r.linkState = .l0Unconfigured → r.busy = false ∧ r.spif = false ∧ r.spifArmed = false) ∧
    r.wcol = false ∧
    (status ≠ .faulted →
      if pos.any (fun p => awaiting p.1 p.2) = true then r.busy = !r.spif ∧ r.spifArmed = false
      else r.busy = false ∧ r.spifArmed = r.spif) ∧
    (∀ i mpc, pos = some (i, mpc) → sendsFrame i = true → mpc ≠ 0 → csBit pin r.iolatch0 = frameCs i) ∧
    (∀ d mpc, pos = some (.busConfig d, mpc) → 4 ≤ mpc → r.spcr = 0x20#8)

/-- The serial unit's invariant. -/
def LinkInv (s : State) : Prop :=
  LinkAt s.setup.params.csPin (position s) s.ctrl.status s.clk.seqState s.ser

/-- The codes a program of host operations can raise: 5, 6 and 7 never (60_exceptions.md R230, 41_serial.md R196,
R199, 20_memory.md R83), and the record's op_pc is CTRL's (60_exceptions.md R232). -/
def CodesInv (s : State) : Prop :=
  ∀ r, s.env.fault = some r →
    r.opPc = s.ctrl.opPc ∧
      (r.code = .illegalOp ∨ r.code = .order ∨
        s.setup.params.pollBudget ≠ none ∧ (r.code = .timeoutBus ∨ r.code = .timeoutLock))

/-- The machine's invariant: legal parameters, and everything above that one step needs of the state before it. -/
def BlockInv (s : State) : Prop :=
  s.setup.params.Legal ∧ RegistersLegal s ∧ FaultRecorded s ∧ CtrlInv s ∧ ClockInv s ∧ LinkInv s ∧ CodesInv s

/-! ### Frames in progress -/

/-- READ_REGISTER's captures: the last byte received is in SPDR, hi holds the third and lo the fourth once captured
(41_serial.md R193). -/
def captured (s : State) (rx : List Byte) : Prop :=
  (∀ b, rx.getLast? = some b → s.ser.spdrRx = b) ∧
    (8 ≤ s.ctrl.mpc → rx[2]? = some s.ctrl.hi) ∧ (11 ≤ s.ctrl.mpc → rx[3]? = some s.ctrl.lo)

/-- The frame of `i` in progress: the trace is `base`, the select-assert and the exchanges completed so far with the
received bytes `rx`; a transfer in flight carries the frame's next byte. -/
def FrameSoFar (i : Instr) (base : List Event) (rx : List Byte) (s : State) : Prop :=
  rx.length = exchanged i s ∧
    s.env.trace =
      base ++ .cs (frameCs i) s.ctrl.opPc :: exchanges (frameBytes s.setup.params i) rx (frameCs i) s.ctrl.opPc ∧
    (s.ser.busy = true → (frameBytes s.setup.params i)[rx.length]? = some s.ser.spdrTx) ∧
    ∀ a, i = .readRegister a → captured s rx

/-- The byte of a decoder register value that the echo double answers in exchange `k` of a read (41_serial.md R189). -/
def readPart (k : Nat) (v : Half) : Byte := if k = 2 then highByte v else lowByte v

/-- What the echo double has made of the frame in progress (41_serial.md R189): it has answered a written register's
bytes in the third and fourth exchange of a read, and has taken the value with the fourth exchange of a write. -/
def EchoSoFar (i : Instr) (regs : Memory) (rx : List Byte) (s : State) : Prop :=
  s.env.dev = .echo (match i with
    | .writeRegister a v => if rx.length = 4 then Memory.write regs a v else regs
    | _ => regs) ∧
  match i with
  | .readRegister a => ∀ v, Memory.read regs a = some v → ∀ k, 2 ≤ k → k < rx.length → rx[k]? = some (readPart k v)
  | _ => True

end Sys2Proof.Machine
end

