-- ==== Sys2Proof/Certificates/Slice0/Obligations.lean ====
section
/-! DEFINITION. The statements for the provers, one def Obligations.<Name> : Prop each; OBLIGATIONS.json lists them. -/

open Sys2Proof Sys2Proof.Machine

/-! ### Encodings (30_encoding.md) -/

/-- A few words written out from 30_encoding.md R105 and 95_test_vectors.md V-E1 to V-E28 (one per family, and
rejected ones), and the bytes of one wire frame for each of the four frame rows with this hardware's parameters. That
the tone bytes of the last clause are read as SINE_TEST_COMMAND, where R112 admits SDI_COMMAND_FRAME as well, is the
model's choice (log 15). -/
def Obligations.WrittenOutWordsDecode : Prop :=
  decode [0x11000023#32] = .ok (.clkConfigure 3#5 1#2) [] ∧
  decode [0x15030000#32] = .ok (.clkTuneMem 3#3) [] ∧
  decode [0x20000040#32] = .ok (.busConfig 64#8) [] ∧
  decode [0x220B2020#32] = .ok (.writeRegister 0x0B#8 0x2020#16) [] ∧
  decode [0x23000000#32, 0x53EF6EAA#32, 0x00000000#32] =
    .ok (.sendCommandSequence 0x53#8 0xEF#8 0x6E#8 0xAA#8 0#8 0#8 0#8 0#8) [] ∧
  decode [0x11000080#32] = .reject .reservedBit ∧
  decode [0x15000000#32] = .reject .illegalOperand ∧
  decode [0x20000007#32] = .reject .illegalOperand ∧
  decode [0x23000000#32, 0x53EF6EAA#32] = .reject .missingExtension ∧
  decode [0x16000000#32] = .reject .unassignedOpcode ∧
  decodeWire Params.hardware false [0x02#8, 0x00#8, 0x0C#8, 0x20#8] = .ok (.sciWriteFrame 0x00#8 0x0C20#16) [] ∧
  decodeWire Params.hardware false [0x03#8, 0x0B#8, 0xFF#8, 0xFF#8] = .ok (.sciReadFrame 0x0B#8) [] ∧
  decodeWire Params.hardware true [1#8, 2#8, 3#8, 4#8, 5#8, 6#8, 7#8, 8#8] =
    .ok (.sdiCommandFrame 1#8 2#8 3#8 4#8 5#8 6#8 7#8 8#8) [] ∧
  decodeWire Params.hardware true [0x53#8, 0xEF#8, 0x6E#8, 0xAA#8, 0#8, 0#8, 0#8, 0#8] =
    .ok (.sineTestCommand 0x6E#8 0xAA#8) []

/-- Decoding an encoded well-formed instruction gives it back, for every row of the opcode table and for all parameters
in which the two SCI opcode bytes differ; a host operation also with any words after it, whatever the parameters. -/
def Obligations.DecodeOfEncode : Prop :=
  ∀ (par : Params) (i : Instr), i.wellFormed = true →
    (par.sciReadOp ≠ par.sciWriteOp → decodeImage par (encode par i) = some i) ∧
    ∀ ws rest, encode par i = .host ws → decode (ws ++ rest) = .ok i rest

/-- Whatever words decode are exactly the encoding of the well-formed host operation they decode to, with the rest
after it: every literal bit of R105's patterns is checked (R106) and every operand bit is kept. So a program is made of
the nine host operations and nothing else: no words spell a wire frame (30_encoding.md section 3), and the subroutines
FEED and XFER have no encoding (R12). -/
def Obligations.DecodedWordsAreTheEncoding : Prop :=
  ∀ (ws rest : List Word) (i : Instr), decode ws = .ok i rest →
    i.wellFormed = true ∧ isOperation i = true ∧ ws = encodeHost i ++ rest ∧
    ∀ par, encode par i = .host (encodeHost i)

/-- Whatever wire bytes decode are exactly the encoding of the well-formed frame they decode to, whatever the
parameters. -/
def Obligations.DecodedBytesAreTheFrame : Prop :=
  ∀ (par : Params) (cs : Bool) (bytes rest : List Byte) (i : Instr), decodeWire par cs bytes = .ok i rest →
    i.wellFormed = true ∧ rest = [] ∧ encode par i = .wire cs bytes

/-- R104: an operation is three words if OPC = 0x23 and one word otherwise. -/
def Obligations.LengthFollowsFromOpcode : Prop :=
  ∀ (w : Word) (rest after : List Word) (i : Instr), decode (w :: rest) = .ok i after →
    (w :: rest).length = (if w.extractLsb' 24 8 = 0x23#8 then 3 else 1) + after.length

/-- R107, R234, R232: at any word list that spells no operation CTRL raises ILLEGAL_OP, whatever the order check would
have said, and performs nothing of an operation. -/
def Obligations.IllegalWordsFault : Prop :=
  ∀ (s : State) (why : Reject), s.ctrl.status = .run → hardwareEnabled s = false →
    decode (fetch s) = .reject why →
    step s = settle .ctrl s (.next (stoppedBy .illegalOp s))

/-- R123, R124, R263: the pseudo-instructions expand to their operations, and with this hardware's parameters the
boot program is the ten words of R263. -/
def Obligations.PseudoInstructionsAndBootProgram : Prop :=
  (∀ (m : BitVec 5) (p : BitVec 2) (n : BitVec 3), n ≠ 0 →
    assemble .clkBringup [m.toNat, p.toNat, n.toNat] =
      some [.clkConfigure m p, .clkEnable, .clkAwaitLock, .clkSwitch, .clkTuneMem n]) ∧
  (∀ v : Half, assemble .setMode [v.toNat] = some [.writeRegister 0x00 v]) ∧
  (∀ p1 p2 : Byte,
    assemble .sineTest [p1.toNat, p2.toNat] = some [.sendCommandSequence 0x53 0xEF p1 p2 0 0 0 0]) ∧
  bootProgram Params.hardware = clkBringup 3 1 3 ++ [.busConfig 64, setMode 0x0C20, sineTest 0x6E 170] ∧
  programWords (bootProgram Params.hardware) =
    [0x11000023, 0x12000000, 0x13000000, 0x14000000, 0x15030000, 0x20000040, 0x22000C20, 0x23000000, 0x53EF6EAA,
      0x00000000]

/-! ### Steps and agents (00_scope.md R6) -/

/-- When CTRL moves (it is running and no other agent could, or the script gives it the step) and the words at op_pc
decode to `i`, the step is exec of `i` with the scheduling fields brought up to date around it (the model's own
fields, log 4). -/
def Obligations.StepRunsDecoded : Prop :=
  ∀ (s : State) (i : Instr) (rest : List Word), s.ctrl.status = .run →
    (hardwareEnabled s = false ∨ s.moves.script.head? = some .ctrl) →
    decode (s.setup.program.drop s.ctrl.opPc) = .ok i rest →
    step s = match exec i s with
      | .next t => .next { t with moves := movesAfter .ctrl s }
      | .fault r => .fault r
      | .refused r => .refused r

/-- R240: in a step exactly one agent moves, an enabled one; where CTRL is chosen but not running, nothing of the
machine moves (the model's idle step, log 21). -/
def Obligations.OneAgentMovesInAStep : Prop :=
  ∀ s t : State, step s = .next t →
    (s.ctrl.status = .run ∧ ∃ u, ctrlStep s = .next u ∧ t = { u with moves := movesAfter .ctrl s }) ∨
    (s.clk.pllconAct.getLsbD 0 = true ∧ s.clk.plock = false ∧
      t = { pllStep s with moves := movesAfter .pll s }) ∨
    (s.ser.busy = true ∧ s.ser.spcr.getLsbD 5 = true ∧
      t = { shifterStep s with moves := movesAfter .shifter s }) ∨
    (s.ctrl.status ≠ .run ∧ t = { s with moves := movesAfter .ctrl s })

/-- R160: the PLL's step is enabled exactly when PLLCON_act[0] = 1 and PLOCK = 0, sets PLOCK and changes nothing else;
given the step by the script it takes it (the script and its bookkeeping are the model's, log 4). -/
def Obligations.PllStepSetsLockOnly : Prop :=
  (∀ s : State, pllEnabled s = (s.clk.pllconAct.getLsbD 0 && !s.clk.plock)) ∧
  (∀ s : State, pllStep s = { s with clk := { s.clk with plock := true } }) ∧
  ∀ s : State, pllEnabled s = true → s.moves.script.head? = some .pll →
    step s = settle .pll s (.next (pllStep s))

/-- R186: the SHIFTER's step is enabled exactly when busy = 1 and SPCR[5] = 1; it receives DEV's answer, sets SPIF,
clears busy and appends the XCHG event. -/
def Obligations.ShifterStepCompletesTransfer : Prop :=
  (∀ s : State, shifterEnabled s = (s.ser.busy && s.ser.spcr.getLsbD 5)) ∧
  (∀ s : State, ∃ rx dev, s.env.dev.answer s.setup.params s.env.trace s.ser.spdrTx s.csLevel s.draws = (rx, dev) ∧
    shifterStep s =
      { s with
        ser := { s.ser with spdrRx := rx, spif := true, busy := false }
        env := { s.env with
          dev := dev
          trace := s.env.trace ++
            [.xchg s.ser.spdrTx rx (s.ser.iolatch0.getLsbD s.setup.params.csPin) s.ctrl.opPc] }
        draws := s.draws + 1 }) ∧
  ∀ s : State, shifterEnabled s = true → s.moves.script.head? = some .shifter →
    step s = settle .shifter s (.next (shifterStep s))

/-- R25, R237: in END and FAULTED CTRL takes no step. With an agent in flight the step changes CTRL, the fault record
and the results in nothing; with none the model's step stops by name (log 7). -/
def Obligations.StoppedControllerStays : Prop :=
  ∀ s : State, s.ctrl.status ≠ .run →
    (∀ t, step s = .next t → t.ctrl = s.ctrl ∧ t.env.fault = s.env.fault ∧ t.env.results = s.env.results) ∧
    (hardwareEnabled s = false →
      step s = .fault (if s.ctrl.status = .faulted then .ctrlStopped s.env.fault else .runEnded))

/-- R20: the program and the parameters never change: the fields of `setup`, and DEVICE, which is the constructor of
DEV's state (log 1, 12). -/
def Obligations.SetupNeverChanges : Prop :=
  ∀ s t : State, step s = .next t →
    t.setup.program = s.setup.program ∧ t.setup.params = s.setup.params ∧ t.env.dev.device = s.env.dev.device

/-- R50: the trace only grows, by at most one event a step. -/
def Obligations.TraceOnlyGrows : Prop :=
  ∀ s t : State, step s = .next t → t.env.trace = s.env.trace ∨ ∃ e, t.env.trace = s.env.trace ++ [e]

/-- R35, R140, R156: the sequencer's state never goes back, and advances by one state at most, whatever the step. -/
def Obligations.SequencerNeverGoesBack : Prop :=
  ∀ s t : State, BlockInv s → step s = .next t →
    t.clk.seqState.rank = s.clk.seqState.rank ∨ t.clk.seqState.rank = s.clk.seqState.rank + 1

/-! ### Reset (10_state.md R55, 70_reset_and_hazards.md R260) -/

/-- R55, R189: every field the rule gives a value has it after reset, for every program, parameters with PROFILE_LPC2000
and DEVICE, the echo double's registers being all unwritten; R260: a reset of a machine in any state, which keeps its
program and parameters, leaves the same. The fields R55 leaves unspecified (t, hi, lo, RESULT) are no part of this
statement. -/
def Obligations.ResetValues : Prop :=
  ∀ (p : Setup) (d : Device), p.params.profile = Profile.lpc2000 → ∀ s,
    (s = State.boot p d ∨ ∃ u : State, u.setup = p ∧ u.env.dev.device = d ∧ s = u.restart) →
    s.ctrl.opPc = 0 ∧ s.ctrl.mpc = 0 ∧ s.ctrl.status = (if p.program = [] then .ended else .run) ∧
    s.ctrl.pollCount = 0 ∧
    s.clk = { pllconHold := 0, pllconAct := 0, pllcfgHold := 0, pllcfgAct := 0, plock := false,
              feedState := .idle, mamcr := 0, mamtim := 7, vpbdiv := 0, seqState := .s0Reset } ∧
    s.ser = { pinsel0 := 0, spcr := 0, spccr := 0, spdrTx := 0, spdrRx := 0, spif := false, wcol := false,
              spifArmed := false, busy := false, iodir0 := 0, iolatch0 := 0, linkState := .l0Unconfigured } ∧
    s.env = { trace := [], results := [], fault := none, dev := if d = .echo then .echo [] else .any } ∧ s.setup = p ∧
    ∀ (regs : Memory) (a : Byte), s.env.dev = .echo regs → Memory.read regs a = none

/-- 95_test_vectors.md section 5 "Reset": every readable register reads 0 right after reset, but MAMTIM, which reads 7;
R261: the clock runs from the crystal and pclk = cclk / 4, rounded down where 4 does not divide cclk (the model's
choice, log 28). With PROFILE_LPC2000 and 32 address bits. -/
def Obligations.ReadsAfterReset : Prop :=
  ∀ (p : Setup) (d : Device) (r : Reg), p.params.profile = Profile.lpc2000 → p.params.addrBits = 32 →
    r ≠ .pllfeed → r ≠ .ioclr0 →
    (∃ t, memRead (p.params.profile.addr r) 4 (State.boot p d) = .ok (if r = .mamtim then 7#32 else 0#32) t) ∧
    connected (State.boot p d).clk = false ∧ cclk p.params (State.boot p d).clk = p.params.fosc ∧
    pclk p.params (State.boot p d).clk = some (p.params.fosc / 4)

/-- R162, R56: the frequencies of this hardware's table, for the configuration 0x23 that its boot program
commits. FCCO is 0 while the PLL is off and 235,929,600 Hz once it is enabled; cclk is the crystal's until the PLL is
connected and 58,982,400 Hz from then on; pclk is cclk / 4 with VPBDIV 00 and cclk with VPBDIV 01. -/
def Obligations.BringUpFrequencies : Prop :=
  ∀ c : Clk,
    (c.pllconAct.getLsbD 0 = false →
      oscillator Params.hardware c = 0 ∧ cclk Params.hardware c = 14745600) ∧
    (c.pllconAct.getLsbD 0 = true → c.pllcfgAct = 0x23 → oscillator Params.hardware c = 235929600) ∧
    (c.pllconAct.getLsbD 1 = false → cclk Params.hardware c = 14745600) ∧
    (c.pllconAct = 3 → c.plock = true → c.pllcfgAct = 0x23 → cclk Params.hardware c = 58982400) ∧
    (c.vpbdiv = 0 → pclk Params.hardware c = some (cclk Params.hardware c / 4)) ∧
    (c.vpbdiv = 1 → pclk Params.hardware c = some (cclk Params.hardware c))

/-! ### Peripheral accesses (20_memory.md) -/

/-- R71, R73, R79, R83: an access at an unmapped or misaligned address, of a width other than four bytes or beyond the
model's ADDR_BITS bound (2 ^ ADDR_BITS: the model's choice for other widths than R71's 32, log 26) is refused with code
7 and has no effect, whatever the parameters; every access of width four at a register's address in a legal profile (log
25) reaches that register, and PROFILE_LPC2000 maps the fifteen addresses of R72. -/
def Obligations.OnlyMappedWordsAreAccessed : Prop :=
  (∀ (a n : Nat) (v : Word) (s : State),
    (n ≠ 4 ∨ a % 4 ≠ 0 ∨ 2 ^ s.setup.params.addrBits ≤ a ∨ ∀ r, s.setup.params.profile.addr r ≠ a) →
    memRead a n s = .bad .unsupportedAccess s ∧ memWrite a n v s = .bad .unsupportedAccess s) ∧
  (∀ (r : Reg) (v : Word) (s : State), s.setup.params.profile.Legal s.setup.params.addrBits →
    memRead (s.setup.params.profile.addr r) 4 s = regRead r s ∧
    memWrite (s.setup.params.profile.addr r) 4 v s = regWrite r v s) ∧
  Reg.all.map Profile.lpc2000.addr =
    [0xE01FC000, 0xE01FC004, 0xE01FC080, 0xE01FC084, 0xE01FC088, 0xE01FC08C, 0xE01FC100, 0xE0020000, 0xE0020004,
      0xE0020008, 0xE002000C, 0xE0028004, 0xE0028008, 0xE002800C, 0xE002C000]

/-- R83 with the state rules R26 to R38: a write to a read-only register, of a reserved value, with a reserved bit set,
of an illegal SPCCR value or of an SPCR value other than 0x20 is refused and nothing of it takes effect, with
PROFILE_LPC2000 and 32 address bits. -/
def Obligations.MeaninglessWritesAreRefused : Prop :=
  ∀ (r : Reg) (v : Word) (s : State), s.setup.params.profile = Profile.lpc2000 → s.setup.params.addrBits = 32 →
    (r = .pllstat ∨ r = .spsr ∨
      (r = .pllcon ∧ v.extractLsb' 2 30 ≠ 0) ∨
      (r = .pllcfg ∧ v.extractLsb' 7 25 ≠ 0) ∨
      (r = .mamcr ∧ (v.extractLsb' 2 30 ≠ 0 ∨ v.extractLsb' 0 2 = 3)) ∨
      (r = .mamtim ∧ (v.extractLsb' 3 29 ≠ 0 ∨ v.extractLsb' 0 3 = 0)) ∨
      (r = .vpbdiv ∧ (v.extractLsb' 2 30 ≠ 0 ∨ v.extractLsb' 0 2 = 3)) ∨
      (r = .spcr ∧ v ≠ 0x20) ∨
      (r = .spccr ∧ (v.extractLsb' 8 24 ≠ 0 ∨ v.getLsbD 0 = true ∨ v.toNat < 8))) →
    memWrite (Profile.lpc2000.addr r) 4 v s = .bad .unsupportedAccess s ∧
    ∀ k, microWrite r v k s = .next (stoppedBy .unsupportedAccess s)

/-- Every other write to a register that stores its value takes effect, and a read then returns the value written
(10_state.md R26, R27, R32 to R34, R36 to R38, R46: reads of PLLCON and PLLCFG return the holding copy); with
PROFILE_LPC2000 and 32 address bits. -/
def Obligations.StoredValuesReadBack : Prop :=
  ∀ (r : Reg) (v : Word) (s : State), s.setup.params.profile = Profile.lpc2000 → s.setup.params.addrBits = 32 →
    (r = .pllcon ∧ v.toNat < 4 ∨ r = .pllcfg ∧ v.toNat < 128 ∨ r = .mamcr ∧ v.toNat < 3 ∨
      r = .mamtim ∧ 1 ≤ v.toNat ∧ v.toNat < 8 ∨ r = .vpbdiv ∧ v.toNat < 3 ∨ r = .spcr ∧ v = 0x20 ∨
      r = .spccr ∧ 8 ≤ v.toNat ∧ v.toNat < 256 ∧ v.toNat % 2 = 0 ∨ r = .iodir0 ∨ r = .pinsel0) →
    ∃ t, memWrite (Profile.lpc2000.addr r) 4 v s = .ok () t ∧
      (∃ u, memRead (Profile.lpc2000.addr r) 4 t = .ok v u) ∧
      ∀ q : Reg, q ≠ r → regValue q t = regValue q s

/-- R28, R40, R43: PLLSTAT shows PLOCK, the active PLLCON bits and the active PLLCFG; SPSR shows SPIF and WCOL; every
other bit of both reads 0; with PROFILE_LPC2000. -/
def Obligations.StatusRegisterLayouts : Prop :=
  ∀ (s : State) (k : Nat), s.setup.params.profile = Profile.lpc2000 →
    (regValue .pllstat s).getLsbD k =
      (if k < 7 then s.clk.pllcfgAct.getLsbD k
        else if k = 8 then s.clk.pllconAct.getLsbD 0
        else if k = 9 then s.clk.pllconAct.getLsbD 1
        else if k = 10 then s.clk.plock
        else false) ∧
    (regValue .spsr s).getLsbD k =
      (if k = 7 then s.ser.spif else if k = 6 then s.ser.wcol else false)

/-- R147, R149, R152: a PLLFEED write arms, commits or disarms by value[7:0], FEED_A being 0xAA and FEED_B 0x55 in this
hardware; a commit copies both holding registers and may clear PLOCK. With PROFILE_LPC2000 and 32 address bits. -/
def Obligations.FeedStateMachine : Prop :=
  Params.hardware.feedA = 0xAA ∧ Params.hardware.feedB = 0x55 ∧
  ∀ (v : Word) (s : State), s.setup.params.profile = Profile.lpc2000 → s.setup.params.addrBits = 32 →
    ∃ t, memWrite Profile.lpc2000.pllfeed.addr 4 v s = .ok () t ∧
    t = { s with clk :=
      if v.extractLsb' 0 8 = s.setup.params.feedA then { s.clk with feedState := .armed }
      else if v.extractLsb' 0 8 = s.setup.params.feedB ∧ s.clk.feedState = .armed then
        { s.clk with
          pllconAct := s.clk.pllconHold
          pllcfgAct := s.clk.pllcfgHold
          plock := if s.clk.pllcfgHold ≠ s.clk.pllcfgAct ∨ s.clk.pllconHold.getLsbD 0 = false then false
            else s.clk.plock
          feedState := .idle }
      else { s.clk with feedState := .idle } }

/-- R148: every access that takes place, other than a PLLFEED write, leaves the feed idle and commits nothing: the
active copies and PLOCK keep their values. For legal parameters (log 25). -/
def Obligations.OtherAccessesAbortTheFeed : Prop :=
  ∀ (r : Reg) (s t : State), s.setup.params.profile.Legal s.setup.params.addrBits →
    ((∃ v, memRead (s.setup.params.profile.addr r) 4 s = .ok v t) ∨
      (r ≠ .pllfeed ∧ ∃ v, memWrite (s.setup.params.profile.addr r) 4 v s = .ok () t)) →
    t.clk.feedState = .idle ∧ t.clk.pllconAct = s.clk.pllconAct ∧ t.clk.pllcfgAct = s.clk.pllcfgAct ∧
    t.clk.plock = s.clk.plock

/-- R182, R185: an SPDR write first clears armed flags; with no transfer in flight it queues value[7:0] and starts the
transfer, and with one in flight it sets WCOL, raises code 5 and queues nothing. With PROFILE_LPC2000 and 32 address
bits. -/
def Obligations.SpdrWriteStartsOrCollides : Prop :=
  ∀ (v : Word) (s : State), s.setup.params.profile = Profile.lpc2000 → s.setup.params.addrBits = 32 →
    (s.ser.busy = false → ∃ t, memWrite Profile.lpc2000.spdr.addr 4 v s = .ok () t ∧
      t.ser = { s.ser with
        spif := s.ser.spif && !s.ser.spifArmed, wcol := s.ser.wcol && !s.ser.spifArmed, spifArmed := false,
        spdrTx := v.extractLsb' 0 8, busy := true }) ∧
    (s.ser.busy = true → ∃ t, memWrite Profile.lpc2000.spdr.addr 4 v s = .bad .writeCollision t ∧
      t.ser = { s.ser with spif := s.ser.spif && !s.ser.spifArmed, wcol := true, spifArmed := false })

/-- R183, R184, R185: reading SPSR arms when SPIF or WCOL is set and changes neither; reading SPDR returns SPDR_rx
and clears both flags only when armed. For legal parameters (log 25). -/
def Obligations.SerialReadsArmAndClear : Prop :=
  ∀ s : State, s.setup.params.profile.Legal s.setup.params.addrBits →
    (∃ t, memRead s.setup.params.profile.spsr.addr 4 s = .ok (s.setup.params.profile.spsr.read s.ser.spsr) t ∧
      t.ser = { s.ser with spifArmed := s.ser.spifArmed || s.ser.spif || s.ser.wcol }) ∧
    (∃ t, memRead s.setup.params.profile.spdr.addr 4 s = .ok (s.setup.params.profile.spdr.read s.ser.spdrRx) t ∧
      t.ser = { s.ser with
        spif := s.ser.spif && !s.ser.spifArmed, wcol := s.ser.wcol && !s.ser.spifArmed, spifArmed := false })

/-- R190, R191: IOSET0 sets and IOCLR0 clears latch bits, and IODIR0 takes its value, which in PROFILE_LPC2000 is the
word written; with the chip-select bit a latch write appends a CS event with the latch's new level, or with a transfer
in flight raises code 6 and has no effect. For legal parameters (log 25), a word's value through the profile's layout
(log 27). -/
def Obligations.LatchWritesDriveChipSelect : Prop :=
  (∀ (v x : Word) (s : State) (r : Reg) (latch : Word), s.setup.params.profile.Legal s.setup.params.addrBits →
    x = (s.setup.params.profile.layout r).value 32 v →
    (r = .ioset0 ∧ latch = s.ser.iolatch0 ||| x ∨ r = .ioclr0 ∧ latch = s.ser.iolatch0 &&& ~~~x) →
    (x.getLsbD s.setup.params.csPin = true → s.ser.busy = true →
      memWrite (s.setup.params.profile.addr r) 4 v s = .bad .csInFlight s ∧
      ∀ k, microWrite r v k s = .next (stoppedBy .csInFlight s)) ∧
    ((x.getLsbD s.setup.params.csPin = true → s.ser.busy = false) →
      ∃ t, memWrite (s.setup.params.profile.addr r) 4 v s = .ok () t ∧
      t.ser = { s.ser with iolatch0 := latch } ∧
      t.env.trace = s.env.trace ++ (if x.getLsbD s.setup.params.csPin then
        [.cs (latch.getLsbD s.setup.params.csPin) s.ctrl.opPc] else []))) ∧
  (∀ (v : Word) (s : State), s.setup.params.profile.Legal s.setup.params.addrBits →
    ∃ t, memWrite s.setup.params.profile.iodir0.addr 4 v s = .ok () t ∧
    t.ser = { s.ser with iodir0 := s.setup.params.profile.iodir0.value 32 v } ∧ t.env = s.env) ∧
  ∀ (r : Reg) (v : Word), r = .ioset0 ∨ r = .ioclr0 ∨ r = .iodir0 → (Profile.lpc2000.layout r).value 32 v = v

/-! ### Polls, faults and order -/

/-- R11: a poll reads; on a set bit poll_count is 0 and the operation goes on; on a clear bit poll_count grows and
the poll spins with mpc unchanged or, at a finite budget, raises its code. For legal parameters (log 25). -/
def Obligations.PollSpinsOrTimesOut : Prop :=
  ∀ (r : Reg) (bit : Nat) (c : Code) (k : State → State) (s : State),
    s.setup.params.profile.Legal s.setup.params.addrBits →
    ∃ u, memRead (s.setup.params.profile.addr r) 4 s = .ok (regValue r s) u ∧ u.ctrl = s.ctrl ∧
      poll r bit c k s = .next (
        if (regValue r s).getLsbD bit then
          k { u with ctrl := { s.ctrl with t := regValue r s, pollCount := 0 } }
        else afterFailedRead c { u with ctrl := { s.ctrl with t := regValue r s } })

/-- R235: with POLL_BUDGET unbounded a poll whose bit is clear is no fault and no END: every failed micro-step of
CLK_AWAIT_LOCK and of an XFER leaves status, fault, op_pc and mpc as they were. For legal parameters (log 25). -/
def Obligations.HangStaysARun : Prop :=
  ∀ (i : Instr) (s : State), s.setup.params.Legal → s.setup.params.pollBudget = none →
    (i = .clkAwaitLock ∧ s.ctrl.mpc = 0 ∧ precondition i s = true ∧ s.clk.plock = false ∨
      awaiting i s.ctrl.mpc = true ∧ s.ser.spif = false) →
    ∃ t, exec i s = .next t ∧ t.ctrl.status = s.ctrl.status ∧ t.env.fault = s.env.fault ∧
      t.ctrl.opPc = s.ctrl.opPc ∧ t.ctrl.mpc = s.ctrl.mpc ∧ t.ctrl.pollCount = s.ctrl.pollCount + 1

/-- R140, R180, R12: an operation's precondition is checked before its first micro-step: where its required sequencer
and link state does not hold it raises ORDER at mpc 0 and changes nothing else; a wire frame as the operation that
emits it (the model's choice, log 13). -/
def Obligations.OutOfOrderFaults : Prop :=
  ∀ (i : Instr) (s : State), s.ctrl.mpc = 0 → precondition i s = false →
    exec i s = .next (stoppedBy .order s)

/-- R232: a micro-step that raises a fault keeps op_pc and mpc and records its code with op_pc. -/
def Obligations.FaultEntry : Prop :=
  ∀ (i : Instr) (s t : State), s.ctrl.status ≠ .faulted → exec i s = .next t → t.ctrl.status = .faulted →
    t.ctrl.opPc = s.ctrl.opPc ∧ t.ctrl.mpc = s.ctrl.mpc ∧
    ∃ c, t.env.fault = some { code := c, opPc := s.ctrl.opPc }

/-- A meaning answers a next state at each of its operation's micro-steps, and stops by name at any other index (the
model's stop, log 16). For legal parameters (log 25). -/
def Obligations.EveryMicroStepAnswers : Prop :=
  ∀ (i : Instr) (s : State), s.setup.params.Legal →
    (s.ctrl.mpc < microSteps i → ∃ t, exec i s = .next t) ∧
    (microSteps i ≤ s.ctrl.mpc → exec i s = .fault .noMicroStep)

/-! ### The clock operations (40_clock.md R142 to R146) -/

/-- R142: each micro-step of CLK_CONFIGURE, and ORDER out of S0_RESET. The three in a row, begun in S0_RESET, leave
both PLLCFG copies p:m and the sequencer in S1_CONFIGURED. For legal parameters (log 25). -/
def Obligations.ClkConfigureEffect : Prop :=
  ∀ (m : BitVec 5) (p : BitVec 2) (s : State), s.setup.params.Legal →
    (s.ctrl.mpc = 0 → s.clk.seqState ≠ .s0Reset → exec (.clkConfigure m p) s = .next (stoppedBy .order s)) ∧
    (s.ctrl.mpc = 0 → s.clk.seqState = .s0Reset →
      exec (.clkConfigure m p) s =
        .next (nextMicroStep { s with clk := { s.clk with pllcfgHold := p ++ m, feedState := .idle } })) ∧
    (s.ctrl.mpc = 1 → exec (.clkConfigure m p) s =
        .next (nextMicroStep { s with clk := { s.clk with feedState := .armed } })) ∧
    (s.ctrl.mpc = 2 → exec (.clkConfigure m p) s =
        .next (atEnd 1 { s with clk :=
          { (if s.clk.feedState = .armed then s.clk.commit else s.clk) with
            feedState := .idle, seqState := .s1Configured } })) ∧
    (s.ctrl.mpc = 0 → s.clk.seqState = .s0Reset → ∃ t, ctrlRun (.clkConfigure m p) 3 s = .next t ∧
      t.clk.pllcfgHold = p ++ m ∧ t.clk.pllcfgAct = p ++ m ∧ t.clk.pllconAct = s.clk.pllconHold ∧
      t.clk.seqState = .s1Configured ∧ t.ctrl.opPc = s.ctrl.opPc + 1 ∧ t.ctrl.mpc = 0)

/-- R143: each micro-step of CLK_ENABLE, and ORDER out of S1_CONFIGURED. The three in a row, begun in S1_CONFIGURED,
leave PLLCON_act = 0b01 and, without a lock, the PLL's lock step enabled. For legal parameters (log 25). -/
def Obligations.ClkEnableEffect : Prop :=
  ∀ s : State, s.setup.params.Legal →
    (s.ctrl.mpc = 0 → s.clk.seqState ≠ .s1Configured → exec .clkEnable s = .next (stoppedBy .order s)) ∧
    (s.ctrl.mpc = 0 → s.clk.seqState = .s1Configured →
      exec .clkEnable s =
        .next (nextMicroStep { s with clk := { s.clk with pllconHold := 1, feedState := .idle } })) ∧
    (s.ctrl.mpc = 1 → exec .clkEnable s =
        .next (nextMicroStep { s with clk := { s.clk with feedState := .armed } })) ∧
    (s.ctrl.mpc = 2 → exec .clkEnable s =
        .next (atEnd 1 { s with clk :=
          { (if s.clk.feedState = .armed then s.clk.commit else s.clk) with
            feedState := .idle, seqState := .s2Enabled } })) ∧
    (s.ctrl.mpc = 0 → s.clk.seqState = .s1Configured → ∃ t, ctrlRun .clkEnable 3 s = .next t ∧
      t.clk.pllconHold = 1 ∧ t.clk.pllconAct = 1 ∧ t.clk.pllcfgAct = s.clk.pllcfgHold ∧
      (s.clk.plock = false → pllEnabled t = true) ∧
      t.clk.seqState = .s2Enabled ∧ t.ctrl.opPc = s.ctrl.opPc + 1 ∧ t.ctrl.mpc = 0)

/-- R144: CLK_AWAIT_LOCK raises ORDER out of S2_ENABLED; in it, it completes on a read of PLOCK = 1, and otherwise
spins or times out with code 2; the read leaves PLLSTAT in t. For legal parameters (log 25). -/
def Obligations.ClkAwaitLockEffect : Prop :=
  ∀ s : State, s.setup.params.Legal → s.ctrl.mpc = 0 →
    (s.clk.seqState ≠ .s2Enabled → exec .clkAwaitLock s = .next (stoppedBy .order s)) ∧
    (s.clk.seqState = .s2Enabled → s.clk.plock = true → exec .clkAwaitLock s =
      .next (atEnd 1 { s with
        ctrl := { s.ctrl with t := s.setup.params.profile.pllstat.read s.clk.pllstat, pollCount := 0 }
        clk := { s.clk with feedState := .idle, seqState := .s3Locked } })) ∧
    (s.clk.seqState = .s2Enabled → s.clk.plock = false → exec .clkAwaitLock s =
      .next (afterFailedRead .timeoutLock { s with
        ctrl := { s.ctrl with t := s.setup.params.profile.pllstat.read s.clk.pllstat }
        clk := { s.clk with feedState := .idle } }))

/-- R145: each micro-step of CLK_SWITCH, and ORDER out of S3_LOCKED. The three in a row, begun in S3_LOCKED with lock
and the configuration already committed, leave PLLCON_act = 0b11, keep the lock and connect the PLL. For legal
parameters (log 25). -/
def Obligations.ClkSwitchEffect : Prop :=
  ∀ s : State, s.setup.params.Legal →
    (s.ctrl.mpc = 0 → s.clk.seqState ≠ .s3Locked → exec .clkSwitch s = .next (stoppedBy .order s)) ∧
    (s.ctrl.mpc = 0 → s.clk.seqState = .s3Locked →
      exec .clkSwitch s =
        .next (nextMicroStep { s with clk := { s.clk with pllconHold := 3, feedState := .idle } })) ∧
    (s.ctrl.mpc = 1 → exec .clkSwitch s =
        .next (nextMicroStep { s with clk := { s.clk with feedState := .armed } })) ∧
    (s.ctrl.mpc = 2 → exec .clkSwitch s =
        .next (atEnd 1 { s with clk :=
          { (if s.clk.feedState = .armed then s.clk.commit else s.clk) with
            feedState := .idle, seqState := .s4Switched } })) ∧
    (s.ctrl.mpc = 0 → s.clk.seqState = .s3Locked → s.clk.plock = true → s.clk.pllcfgHold = s.clk.pllcfgAct →
      ∃ t, ctrlRun .clkSwitch 3 s = .next t ∧ t.clk.pllconAct = 3 ∧ t.clk.plock = true ∧
        connected t.clk = true ∧ t.clk.seqState = .s4Switched ∧ t.ctrl.opPc = s.ctrl.opPc + 1 ∧ t.ctrl.mpc = 0)

/-- R146, R154: each micro-step of CLK_TUNE_MEM n, n from 1 to 7, and ORDER out of S4_SWITCHED; MAM_MODE is 2 and
VPBDIV_CODE 1 in this hardware. For legal parameters (log 25). -/
def Obligations.ClkTuneMemEffect : Prop :=
  Params.hardware.mamMode = 2 ∧ Params.hardware.vpbdivCode = 1 ∧
  ∀ (n : BitVec 3) (s : State), s.setup.params.Legal →
    (s.ctrl.mpc = 0 → s.clk.seqState ≠ .s4Switched → exec (.clkTuneMem n) s = .next (stoppedBy .order s)) ∧
    (s.ctrl.mpc = 0 → s.clk.seqState = .s4Switched → n ≠ 0 → exec (.clkTuneMem n) s =
      .next (nextMicroStep { s with clk := { s.clk with mamtim := n, feedState := .idle } })) ∧
    (s.ctrl.mpc = 1 → exec (.clkTuneMem n) s =
      .next (nextMicroStep { s with clk := { s.clk with mamcr := s.setup.params.mamMode, feedState := .idle } })) ∧
    (s.ctrl.mpc = 2 → exec (.clkTuneMem n) s =
      .next (atEnd 1 { s with clk :=
        { s.clk with vpbdiv := s.setup.params.vpbdivCode, feedState := .idle, seqState := .s5Done } }))

/-! ### The link operations (41_serial.md R192 to R195) -/

/-- R192: each micro-step of BUS_CONFIG d, d even and at least 8, and ORDER out of S5_DONE or L0_UNCONFIGURED; in
this hardware the chip-select mask is 0x80, the pin functions are those of R121, and the words of PINSEL0 and IODIR0
are their values. For legal parameters (log 25), a word's value through the profile's layout (log 27). -/
def Obligations.BusConfigEffect : Prop :=
  csm Params.hardware.csPin = 0x00000080#32 ∧
  (∀ t : Word, pinselValue Params.hardware t = (t &&& ~~~0x0000FF00#32) ||| 0x00001500#32) ∧
  (∀ (r : Reg) (x : Word), r = .pinsel0 ∨ r = .iodir0 →
    (Profile.lpc2000.layout r).value 32 x = x ∧ (Profile.lpc2000.layout r).read x = x) ∧
  ∀ (d : Byte) (s : State), s.setup.params.Legal → 8 ≤ d.toNat → d.toNat % 2 = 0 →
    (s.ctrl.mpc = 0 → s.clk.seqState ≠ .s5Done ∨ s.ser.linkState ≠ .l0Unconfigured →
      exec (.busConfig d) s = .next (stoppedBy .order s)) ∧
    (s.ctrl.mpc = 0 → s.clk.seqState = .s5Done → s.ser.linkState = .l0Unconfigured → exec (.busConfig d) s =
      .next (nextMicroStep { s with
        ctrl := { s.ctrl with t := s.setup.params.profile.pinsel0.read s.ser.pinsel0 }
        clk := { s.clk with feedState := .idle } })) ∧
    (s.ctrl.mpc = 1 → exec (.busConfig d) s =
      .next (nextMicroStep { s with
        clk := { s.clk with feedState := .idle }
        ser := { s.ser with
          pinsel0 := pinselValue s.setup.params (s.setup.params.profile.pinsel0.value 32 s.ctrl.t) } })) ∧
    (s.ctrl.mpc = 2 → exec (.busConfig d) s =
      .next (nextMicroStep { s with
        clk := { s.clk with feedState := .idle }, ser := { s.ser with spccr := d } })) ∧
    (s.ctrl.mpc = 3 → exec (.busConfig d) s =
      .next (nextMicroStep { s with
        clk := { s.clk with feedState := .idle }, ser := { s.ser with spcr := 0x20 } })) ∧
    DrivesCs (.busConfig d) 4 true nextMicroStep ∧
    (s.ctrl.mpc = 5 → exec (.busConfig d) s =
      .next (nextMicroStep { s with
        ctrl := { s.ctrl with t := s.setup.params.profile.iodir0.read s.ser.iodir0 }
        clk := { s.clk with feedState := .idle } })) ∧
    (s.ctrl.mpc = 6 → exec (.busConfig d) s =
      .next (atEnd 1 { s with
        clk := { s.clk with feedState := .idle }
        ser := { s.ser with
          iodir0 := s.setup.params.profile.iodir0.value 32 s.ctrl.t ||| csm s.setup.params.csPin
          linkState := .l1Ready } }))

/-- R193: the twelve micro-steps of READ_REGISTER a, in S5_DONE and L1_READY, and ORDER elsewhere; SCI_READ_OP is
0x03 and DUMMY_BYTE 0xFF in this hardware. For legal parameters (log 25). -/
def Obligations.ReadRegisterEffect : Prop :=
  Params.hardware.sciReadOp = 0x03 ∧ Params.hardware.dummyByte = 0xFF ∧
  ∀ a : Byte, ReadSteps a (.readRegister a)

/-- R194: the ten micro-steps of WRITE_REGISTER a, v, the high byte first, in S5_DONE and L1_READY, and ORDER
elsewhere; SCI_WRITE_OP is 0x02 in this hardware. For legal parameters (log 25). -/
def Obligations.WriteRegisterEffect : Prop :=
  Params.hardware.sciWriteOp = 0x02 ∧
  ∀ (a : Byte) (v : Half), WriteSteps a v (.writeRegister a v)

/-- R195: the eighteen micro-steps of SEND_COMMAND_SEQUENCE, in S5_DONE and L1_READY, and ORDER elsewhere; op_pc
advances by three words. For legal parameters (log 25). -/
def Obligations.SendCommandSequenceEffect : Prop :=
  ∀ b0 b1 b2 b3 b4 b5 b6 b7 : Byte,
    SendSteps [b0, b1, b2, b3, b4, b5, b6, b7] (.sendCommandSequence b0 b1 b2 b3 b4 b5 b6 b7)

/-- A wire frame goes out as the micro-steps of the operation that emits it (the model's choice, log 13): R110 as
WRITE_REGISTER's, R111 as READ_REGISTER's, R112 and the tone command of R113 as SEND_COMMAND_SEQUENCE's. For legal
parameters (log 25). -/
def Obligations.WireFrameEffects : Prop :=
  (∀ (a : Byte) (v : Half), WriteSteps a v (.sciWriteFrame a v)) ∧
  (∀ a : Byte, ReadSteps a (.sciReadFrame a)) ∧
  (∀ b0 b1 b2 b3 b4 b5 b6 b7 : Byte,
    SendSteps [b0, b1, b2, b3, b4, b5, b6, b7] (.sdiCommandFrame b0 b1 b2 b3 b4 b5 b6 b7)) ∧
  ∀ p1 p2 : Byte, SendSteps [0x53, 0xEF, p1, p2, 0, 0, 0, 0] (.sineTestCommand p1 p2)

/-- R110 to R113, R76, R198: run with each transfer completing as it starts, an operation or frame that sends bytes
puts exactly its frame on the wire, tagged with its op_pc, and ends with op_pc advanced by its length. For legal
parameters (log 25). -/
def Obligations.WholeFrameOnTheWire : Prop :=
  ∀ (i : Instr) (s : State), s.setup.params.Legal → sendsFrame i = true → s.ctrl.mpc = 0 → s.ser.busy = false →
    s.ser.spcr.getLsbD 5 = true → precondition i s = true →
    ∃ t rx, linkRun i (microSteps i) s = .next t ∧ rx.length = (frameBytes s.setup.params i).length ∧
      t.env.trace = s.env.trace ++ wholeFrame s.setup.params i rx s.ctrl.opPc ∧
      t.ctrl.opPc = s.ctrl.opPc + opWords i ∧ t.ctrl.mpc = 0 ∧ t.ser.busy = false ∧
      t.env.fault = s.env.fault ∧ t.csLatch = !frameCs i

/-- R273: after an operation's frame SPIF and spif_armed are 1, but for a read, whose last capture has cleared them
(each transfer completing as it starts). For legal parameters (log 25). -/
def Obligations.SpifAfterFrame : Prop :=
  ∀ (i : Instr) (s : State), s.setup.params.Legal → sendsFrame i = true → s.ctrl.mpc = 0 → s.ser.busy = false →
    s.ser.spcr.getLsbD 5 = true → precondition i s = true →
    ∃ t, linkRun i (microSteps i) s = .next t ∧
      ((∃ a, i = .readRegister a ∨ i = .sciReadFrame a) → t.ser.spif = false ∧ t.ser.spifArmed = false) ∧
      ((∀ a, i ≠ .readRegister a ∧ i ≠ .sciReadFrame a) → t.ser.spif = true ∧ t.ser.spifArmed = true)

/-- R189, R201: against the echo double, READ_REGISTER a right after WRITE_REGISTER a, v sets RESULT to v and logs it
(each transfer completing as it starts). For legal parameters (log 25). -/
def Obligations.EchoRoundTrip : Prop :=
  ∀ (a : Byte) (v : Half) (regs : Memory) (s : State), s.setup.params.Legal → s.ctrl.mpc = 0 → s.ser.busy = false →
    s.ser.spcr.getLsbD 5 = true → csBit s.setup.params.csPin s.ser.iodir0 = true → linkReady s = true →
      s.env.dev = .echo regs → Memory.wf regs = true →
    ∃ t u, linkRun (.writeRegister a v) 10 s = .next t ∧ linkRun (.readRegister a) 12 t = .next u ∧
      u.ctrl.result = v ∧ u.env.results = s.env.results ++ [v]

/-! ### Frames: what an instruction leaves alone -/

/-- The five clock operations: no serial register, no received byte, no trace or result, no decoder register, no
captured byte and no scheduling field changes; of the clock unit's own registers only those R142 to R146 name. For
legal parameters (log 25). -/
def Obligations.ClockOperationsFrame : Prop :=
  ∀ (i : Instr) (s t : State), s.setup.params.Legal →
    ((∃ m p, i = .clkConfigure m p) ∨ i = .clkEnable ∨ i = .clkAwaitLock ∨ i = .clkSwitch ∨
      ∃ n, i = .clkTuneMem n) →
    exec i s = .next t →
    t.ser = s.ser ∧ t.setup = s.setup ∧ t.moves = s.moves ∧ t.draws = s.draws ∧
    t.env.trace = s.env.trace ∧ t.env.results = s.env.results ∧ t.env.dev = s.env.dev ∧
    t.ctrl.hi = s.ctrl.hi ∧ t.ctrl.lo = s.ctrl.lo ∧ t.ctrl.result = s.ctrl.result ∧
    (i ≠ .clkAwaitLock → t.ctrl.t = s.ctrl.t ∧ t.ctrl.pollCount = s.ctrl.pollCount) ∧
    ((∀ n, i ≠ .clkTuneMem n) →
      t.clk.mamcr = s.clk.mamcr ∧ t.clk.mamtim = s.clk.mamtim ∧ t.clk.vpbdiv = s.clk.vpbdiv) ∧
    ((∀ m p, i ≠ .clkConfigure m p) → t.clk.pllcfgHold = s.clk.pllcfgHold) ∧
    (i ≠ .clkEnable → i ≠ .clkSwitch → t.clk.pllconHold = s.clk.pllconHold) ∧
    (s.clk.feedState = .idle ∨ i = .clkAwaitLock ∨ (∃ n, i = .clkTuneMem n) →
      t.clk.pllconAct = s.clk.pllconAct ∧ t.clk.pllcfgAct = s.clk.pllcfgAct ∧ t.clk.plock = s.clk.plock)

/-- BUS_CONFIG: the clock unit (but the feed state machine), the transfer state, received bytes, results, decoder
registers, captured bytes, poll_count and scheduling fields are unchanged, and the latch and direction of every pin
but chip-select: the latch always, the direction whenever t holds the word read from IODIR0. For legal parameters
(log 25). -/
def Obligations.BusConfigFrame : Prop :=
  ∀ (d : Byte) (s t : State), s.setup.params.Legal → exec (.busConfig d) s = .next t →
    (∃ f, t.clk = { s.clk with feedState := f }) ∧
    t.ser.spdrTx = s.ser.spdrTx ∧ t.ser.spdrRx = s.ser.spdrRx ∧ t.ser.spif = s.ser.spif ∧
    t.ser.wcol = s.ser.wcol ∧ t.ser.spifArmed = s.ser.spifArmed ∧ t.ser.busy = s.ser.busy ∧
    (∀ k, k ≠ s.setup.params.csPin.val → t.ser.iolatch0.getLsbD k = s.ser.iolatch0.getLsbD k) ∧
    (s.ctrl.t = s.setup.params.profile.iodir0.read s.ser.iodir0 →
      ∀ k, k ≠ s.setup.params.csPin.val → t.ser.iodir0.getLsbD k = s.ser.iodir0.getLsbD k) ∧
    t.env.results = s.env.results ∧ t.env.dev = s.env.dev ∧
    t.setup = s.setup ∧ t.moves = s.moves ∧ t.draws = s.draws ∧
    t.ctrl.hi = s.ctrl.hi ∧ t.ctrl.lo = s.ctrl.lo ∧ t.ctrl.result = s.ctrl.result ∧
    t.ctrl.pollCount = s.ctrl.pollCount

/-- The operations that send a frame, and the frames: the clock unit (but the feed state machine), the serial port's
configuration, the pin functions and directions, every latch bit but chip-select, the received byte, every decoder
register and the scheduling fields are unchanged; RESULT, the result log and the captured bytes change for
READ_REGISTER only, RESULT and the log only at its last micro-step. For legal parameters (log 25). -/
def Obligations.TransferOperationsFrame : Prop :=
  ∀ (i : Instr) (s t : State), s.setup.params.Legal → sendsFrame i = true → exec i s = .next t →
    (∃ f, t.clk = { s.clk with feedState := f }) ∧
    t.ser.pinsel0 = s.ser.pinsel0 ∧ t.ser.spcr = s.ser.spcr ∧ t.ser.spccr = s.ser.spccr ∧
    t.ser.spdrRx = s.ser.spdrRx ∧ t.ser.iodir0 = s.ser.iodir0 ∧ t.ser.linkState = s.ser.linkState ∧
    (∀ k, k ≠ s.setup.params.csPin.val → t.ser.iolatch0.getLsbD k = s.ser.iolatch0.getLsbD k) ∧
    t.env.dev = s.env.dev ∧ t.setup = s.setup ∧ t.moves = s.moves ∧ t.draws = s.draws ∧
    (((∀ a, i ≠ .readRegister a ∧ i ≠ .sciReadFrame a) ∨ s.ctrl.mpc ≠ 11) →
      t.ctrl.result = s.ctrl.result ∧ t.env.results = s.env.results) ∧
    ((∀ a, i ≠ .readRegister a ∧ i ≠ .sciReadFrame a) → t.ctrl.hi = s.ctrl.hi ∧ t.ctrl.lo = s.ctrl.lo)

/-- R85: the PLL's step touches PLOCK only, and the SHIFTER's only SPDR_rx, SPIF, busy, the trace, DEV and the model's
draw counter (log 8); it changes no decoder register but the one the echo double takes from a completed write frame
(R189). -/
def Obligations.HardwareStepsFrame : Prop :=
  ∀ s : State,
    pllStep s = { s with clk := { s.clk with plock := true } } ∧
    (∃ b e d, shifterStep s = { s with
      ser := { s.ser with spdrRx := b, spif := true, busy := false }
      env := { s.env with trace := s.env.trace ++ [e], dev := d }
      draws := s.draws + 1 }) ∧
    ∀ regs, s.env.dev = .echo regs → ∃ regs', (shifterStep s).env.dev = .echo regs' ∧
      ∀ b, (∀ hi, sciInProgress s.env.trace ≠ some [s.setup.params.sciWriteOp, b, hi]) →
        Memory.read regs' b = Memory.read regs b

/-! ### Invariants that every step keeps -/

/-- No step stores a code the profile calls reserved or refused in a register (10_state.md R26 to R38). -/
def Obligations.RegistersStayLegal : Prop :=
  ∀ s t : State, RegistersLegal s → step s = .next t → RegistersLegal t

/-- PLOCK stays 0 while PLLE is not active (40_clock.md R152, R160). -/
def Obligations.LockStaysUnderEnable : Prop :=
  ∀ s t : State, LockNeedsEnable s → step s = .next t → LockNeedsEnable t

/-- R25, R52: FAULTED and the fault record come and stay together, and a recorded fault is never cleared or changed by
a step. -/
def Obligations.FaultRecordIsSticky : Prop :=
  ∀ s t : State, FaultRecorded s → step s = .next t →
    FaultRecorded t ∧ ∀ r, s.env.fault = some r → t.env.fault = some r

/-- The echo double's registers keep their canonical form, a register reads as written, and every other register as
before (41_serial.md R189). -/
def Obligations.DecoderMemoryStaysCanonical : Prop :=
  (∀ s t : State, s.env.dev.wf = true → step s = .next t → t.env.dev.wf = true) ∧
  ∀ (m : Memory) (a b : Byte) (v : Half), Memory.wf m = true →
    Memory.wf (Memory.write m a v) = true ∧
    Memory.read (Memory.write m a v) b = if b = a then some v else Memory.read m b

/-- HEADLINE. Every step keeps the machine's invariant, whichever agent moves: the feed is adjacent (R157), no lock
before CLK_ENABLE's commit (R159), lock kept through the switch (R153), one byte in flight (R199), chip-select fixed in
flight (R196, R198), no stale SPIF (R181), codes 5, 6 and 7 never raised (R230). -/
def Obligations.EveryStepKeepsBlockInv : Prop :=
  ∀ s t : State, BlockInv s → step s = .next t → BlockInv t

/-- The invariant holds after reset, and the echo double's registers are canonical, for every program, all legal
parameters (this hardware's among them) and either DEVICE. What makes parameters legal beyond R7's own words is the
model's reading (log 25). -/
def Obligations.BlockInvAtReset : Prop :=
  Params.hardware.Legal ∧
  ∀ (p : Setup) (d : Device), p.params.Legal → BlockInv (State.boot p d) ∧ (State.boot p d).env.dev.wf = true

/-- From a state that meets the invariant no step stops by the model's noMicroStep, and while CTRL runs a step always
answers a next state: every operation of every program can go on, fault or spin. Each micro-step keeps to its
operation's template (R12): it changes only the flags the operation's rule says it writes, raises only a fault that rule
lists, and spins only where the rule gives a hang. -/
def Obligations.RunningMachineSteps : Prop :=
  (∀ s : State, BlockInv s → s.ctrl.status = .run → ∃ t, step s = .next t) ∧
  ∀ (i : Instr) (s t : State), BlockInv s → Runs i s → exec i s = .next t → KeepsToTemplate i s t

/-! ### Under every order of the agents -/

/-- HEADLINE, R76, R110 to R112, R193 to R198: whatever the order of the agents' steps, an operation that sends a frame
puts its own frame on the wire, byte by byte, and nothing else: begun at mpc 0 it asserts chip-select; then each step
keeps the frame so far (through a timeout too) or ends the operation with the whole frame, and READ_REGISTER then
gives the third and fourth bytes received as its result. -/
def Obligations.FrameUnderEveryOrder : Prop :=
  ∀ (i : Instr) (s t : State), BlockInv s → Runs i s → sendsFrame i = true → step s = .next t →
    (s.ctrl.mpc = 0 →
      t.ctrl.mpc = 0 ∧ t.env.trace = s.env.trace ∨ t.ctrl.mpc = 1 ∧ FrameSoFar i s.env.trace [] t) ∧
    (∀ base rx, s.ctrl.mpc ≠ 0 → FrameSoFar i base rx s →
      t.ctrl.opPc = s.ctrl.opPc ∧ t.ctrl.mpc ≠ 0 ∧ (FrameSoFar i base rx t ∨ ∃ b, FrameSoFar i base (rx ++ [b]) t) ∨
      t.ctrl.opPc = s.ctrl.opPc + opWords i ∧ t.ctrl.mpc = 0 ∧
        t.env.trace = base ++ wholeFrame s.setup.params i rx s.ctrl.opPc ∧
        rx.length = (frameBytes s.setup.params i).length ∧
        ∀ a, i = .readRegister a → ∃ x y, rx[2]? = some x ∧ rx[3]? = some y ∧ t.ctrl.result = x ++ y ∧
          t.env.results = s.env.results ++ [x ++ y])

/-- HEADLINE, R189, R201: whatever the order of the agents' steps, the echo double takes the value of a write frame when
its fourth exchange completes, and answers a written register's high byte in the third and low byte in the fourth
exchange of a read frame. -/
def Obligations.EchoUnderEveryOrder : Prop :=
  ∀ (i : Instr) (regs : Memory) (base : List Event) (rx : List Byte) (s t : State), BlockInv s → Runs i s →
    sendsFrame i = true → s.ctrl.mpc ≠ 0 → FrameSoFar i base rx s → EchoSoFar i regs rx s → step s = .next t →
    t.ctrl.mpc ≠ 0 →
    (FrameSoFar i base rx t ∧ EchoSoFar i regs rx t) ∨
      ∃ b, FrameSoFar i base (rx ++ [b]) t ∧ EchoSoFar i regs (rx ++ [b]) t

/-- R144, R161, R235: with LOCK_FAIR, an active configuration in band and no poll budget, CLK_AWAIT_LOCK in
S2_ENABLED ends with lock after finitely many steps, however the free choices fall. -/
def Obligations.FairLockEndsTheWait : Prop :=
  ∀ s : State, BlockInv s → Runs .clkAwaitLock s → s.clk.seqState = .s2Enabled →
    s.setup.params.pollBudget = none → s.setup.params.lockFair = true →
    inBand s.setup.params s.clk.pllcfgAct = true → s.moves.script = [] →
    ∃ n t, n ≤ (Config.lockPatience - s.moves.pllWait) + 2 ∧ Host.Core.run Sys2Proof.core n s = .next t ∧
      t.clk.plock = true ∧ t.clk.seqState = .s3Locked ∧ t.ctrl.opPc = s.ctrl.opPc + 1

/-- R181, R187, R235: with SHIFT_FAIR and no poll budget, every wait of an XFER ends after finitely many
steps, however the free choices fall. -/
def Obligations.FairShifterEndsTheWait : Prop :=
  ∀ (i : Instr) (s : State), BlockInv s → Runs i s → awaiting i s.ctrl.mpc = true →
    s.setup.params.pollBudget = none → s.setup.params.shiftFair = true → s.moves.script = [] →
    ∃ n t, n ≤ (Config.shiftPatience - s.moves.shiftWait) + 2 ∧ Host.Core.run Sys2Proof.core n s = .next t ∧
      t.ctrl.mpc = s.ctrl.mpc + 1 ∧ t.ctrl.opPc = s.ctrl.opPc ∧ t.ser.busy = false
end

