-- ==== Sys2Proof/Laws/Encoding.lean ====
section
/-! SUPPORT. The fields of an encoded word: what the decoder's field selectors find in the encoder's words
(30_encoding.md R100, R103, R110). -/

namespace Sys2Proof

/-- Bits of a host word, counted in its three fields. -/
theorem hostWord_getLsbD (opc a : Byte) (d : Half) (k : Nat) :
    (hostWord opc a d).getLsbD k =
      if k < 16 then d.getLsbD k else if k < 24 then a.getLsbD (k - 16) else opc.getLsbD (k - 24) := by
  show ((opc ++ a ++ d : BitVec (8 + 8 + 16))).getLsbD k = _
  rw [BitVec.getLsbD_append, BitVec.getLsbD_append]
  by_cases h1 : k < 16 <;> by_cases h2 : k < 24 <;> simp [h1, h2, show (k - 16 < 8) = (k < 24) by
    apply propext; omega, show k - 16 - 8 = k - 24 by omega]

@[simp] theorem fieldOpc_hostWord (opc a : Byte) (d : Half) : fieldOpc (hostWord opc a d) = opc := by
  apply BitVec.eq_of_getLsbD_eq
  intro k hk
  simp only [fieldOpc, BitVec.getLsbD_extractLsb', hostWord_getLsbD, hk, decide_true, Bool.true_and]
  rw [if_neg (by omega), if_neg (by omega), Nat.add_sub_cancel_left]

@[simp] theorem fieldA_hostWord (opc a : Byte) (d : Half) : fieldA (hostWord opc a d) = a := by
  apply BitVec.eq_of_getLsbD_eq
  intro k hk
  simp only [fieldA, BitVec.getLsbD_extractLsb', hostWord_getLsbD, hk, decide_true, Bool.true_and]
  rw [if_neg (by omega), if_pos (by omega), Nat.add_sub_cancel_left]

@[simp] theorem fieldD_hostWord (opc a : Byte) (d : Half) : fieldD (hostWord opc a d) = d := by
  apply BitVec.eq_of_getLsbD_eq
  intro k hk
  simp only [fieldD, BitVec.getLsbD_extractLsb', hostWord_getLsbD, hk, decide_true, Bool.true_and]
  rw [if_pos (by omega), Nat.zero_add]

/-- A word is put together again from its three fields. -/
theorem hostWord_fields (w : Word) : hostWord (fieldOpc w) (fieldA w) (fieldD w) = w := by
  apply BitVec.eq_of_getLsbD_eq
  intro k hk
  rw [hostWord_getLsbD]
  simp only [fieldOpc, fieldA, fieldD, BitVec.getLsbD_extractLsb']
  split
  · next h => simp [h]
  · split
    · next h1 h2 => simp [show k - 16 < 8 by omega, show 16 + (k - 16) = k by omega]
    · next h1 h2 => simp [show k - 24 < 8 by omega, show 24 + (k - 24) = k by omega]

end Sys2Proof
end

