-- ==== Sys2Proof/Laws/Layout.lean ====
section
/-! SUPPORT. What a profile's layouts do to a value: a word spells exactly the value it was made from, the word read has
it at its places, and an access finds the register it names (10_state.md R26 to R40, 20_memory.md R72). -/

namespace Sys2Proof.Machine

theorem getLsbD_tabulate (f : Nat → Bool) (n k : Nat) : (tabulate f n).getLsbD k = (decide (k < n) && f k) := by
  induction n with
  | zero => simp [tabulate]
  | succ n ih =>
    simp only [tabulate, BitVec.getLsbD_cons, ih]
    by_cases h : k = n
    · simp [h]
    · by_cases h' : k < n
      · simp [h, h', show k < n + 1 by omega]
      · simp [h, h', show ¬k < n + 1 by omega]

/-- Bit j of a spread word is the bit whose place is j. -/
theorem getLsbD_spread {w : Nat} (x : BitVec w) (k : Nat) (places : List Nat) {j : Nat} (hj : j < 32) :
    (spread x k places).getLsbD j = true ↔ ∃ i, places[i]? = some j ∧ x.getLsbD (k + i) = true := by
  induction places generalizing k with
  | nil => simp [spread]
  | cons b rest ih =>
    have hb : (if x.getLsbD k then BitVec.twoPow 32 b else 0#32).getLsbD j = true ↔ b = j ∧ x.getLsbD k = true := by
      cases x.getLsbD k
      · simp
      · simpa [hj] using eq_comm
    simp only [spread, BitVec.getLsbD_or, Bool.or_eq_true, hb, ih]
    constructor
    · rintro (⟨rfl, h⟩ | ⟨i, hi, h⟩)
      · exact ⟨0, rfl, h⟩
      · exact ⟨i + 1, by simpa using hi, by rwa [show k + (i + 1) = k + 1 + i by omega]⟩
    · rintro ⟨i, hi, h⟩
      cases i with
      | zero => exact .inl ⟨by simpa using hi, h⟩
      | succ i => exact .inr ⟨i, by simpa using hi, by rwa [show k + 1 + i = k + (i + 1) by omega]⟩

/-- Bit j of the word of a value. -/
theorem RegLayout.getLsbD_word (l : RegLayout) {w : Nat} (x : BitVec w) {j : Nat} (hj : j < 32) :
    (l.word x).getLsbD j = true ↔ ∃ i, l.bits[i]? = some j ∧ x.getLsbD i = true := by
  simpa [RegLayout.word] using getLsbD_spread x 0 l.bits hj

variable {l : RegLayout} {w : Nat}

/-- Each bit of a value stands at its place, and at no other. -/
theorem RegLayout.word_at (h : l.Fits w) (x : BitVec w) {k b : Nat} (hb : l.bits[k]? = some b) :
    (l.word x).getLsbD b = x.getLsbD k := by
  obtain ⟨hk, rfl⟩ := List.getElem?_eq_some_iff.mp hb
  have h32 : l.bits[k] < 32 := h.2.2 _ (List.getElem_mem _)
  apply Bool.eq_iff_iff.mpr
  rw [l.getLsbD_word x h32]
  constructor
  · rintro ⟨i, hi, hx⟩
    obtain ⟨hi', e⟩ := List.getElem?_eq_some_iff.mp hi
    rwa [(h.2.1.getElem_inj_iff).mp e] at hx
  · exact fun hx => ⟨k, hb, hx⟩

/-- The mask holds exactly the places of the value's bits. -/
theorem RegLayout.getLsbD_mask (l : RegLayout) {j : Nat} (hj : j < 32) : l.mask.getLsbD j = true ↔ j ∈ l.bits := by
  rw [RegLayout.mask, l.getLsbD_word _ hj, List.mem_iff_getElem?]
  exact exists_congr fun i => and_iff_left_of_imp fun hi => by
    simp [(List.getElem?_eq_some_iff.mp hi).1]

/-- The word of a value has no reserved bit set. -/
theorem RegLayout.clean_word (l : RegLayout) (x : BitVec w) : l.clean (l.word x) = true := by
  simp only [RegLayout.clean, beq_iff_eq]
  apply BitVec.eq_of_getLsbD_eq
  intro j hj
  cases h : (l.word x).getLsbD j with
  | false => simp [h]
  | true =>
    obtain ⟨i, hi, _⟩ := (l.getLsbD_word x hj).mp h
    simp [(l.getLsbD_mask hj).mpr (List.mem_of_getElem? hi)]

/-- Bit k of the value a word spells is the word's bit at k's place. -/
theorem RegLayout.getLsbD_value (h : l.Fits w) (v : Word) {k b : Nat} (hb : l.bits[k]? = some b) :
    (l.value w v).getLsbD k = v.getLsbD b := by
  have hk : k < w := h.1 ▸ (List.getElem?_eq_some_iff.mp hb).1
  rw [RegLayout.value, getLsbD_tabulate, hb]
  simp [hk]

/-- Two words that agree at the places spell one value. -/
theorem RegLayout.value_eq (h : l.Fits w) {v : Word} {x : BitVec w}
    (hv : ∀ k b, l.bits[k]? = some b → v.getLsbD b = x.getLsbD k) : l.value w v = x := by
  apply BitVec.eq_of_getLsbD_eq
  intro k hk
  have hb : l.bits[k]? = some l.bits[k] := List.getElem?_eq_getElem (h.1 ▸ hk)
  rw [RegLayout.getLsbD_value h v hb, hv k _ hb]

/-- A word spells the value it was made from. -/
theorem RegLayout.value_word (h : l.Fits w) (x : BitVec w) : l.value w (l.word x) = x :=
  RegLayout.value_eq h fun _ _ hb => RegLayout.word_at h x hb

/-- A read returns a value's bits at their places. -/
theorem RegLayout.read_at (h : l.Fits w) (x : BitVec w) {k b : Nat} (hb : l.bits[k]? = some b) :
    (l.read x).getLsbD b = x.getLsbD k := by
  have hm := List.mem_of_getElem? hb
  have h32 : b < 32 := h.2.2 b hm
  simp [RegLayout.read, RegLayout.word_at h x hb, (l.getLsbD_mask h32).mpr hm]

/-- The bit a poll tests. -/
theorem RegLayout.read_place (h : l.Fits w) (x : BitVec w) {k : Nat} (hk : k < w) :
    (l.read x).getLsbD (l.place k) = x.getLsbD k := by
  have hb : l.bits[k]? = some (l.place k) := by
    simp [RegLayout.place, List.getElem?_eq_getElem (h.1.symm ▸ hk : k < l.bits.length)]
  exact RegLayout.read_at h x hb

/-- The word read spells the register's value. -/
theorem RegLayout.value_read (h : l.Fits w) (x : BitVec w) : l.value w (l.read x) = x :=
  RegLayout.value_eq h fun _ _ hb => RegLayout.read_at h x hb

/-- A word without reserved bits is the word of the value it spells. -/
theorem RegLayout.word_value (h : l.Fits w) {v : Word} (hv : l.clean v = true) : l.word (l.value w v) = v := by
  apply BitVec.eq_of_getLsbD_eq
  intro j hj
  apply Bool.eq_iff_iff.mpr
  rw [l.getLsbD_word _ hj]
  constructor
  · rintro ⟨i, hi, hx⟩
    rwa [RegLayout.getLsbD_value h v hi] at hx
  · intro hx
    have hm : l.mask.getLsbD j = true := by
      have := congrArg (BitVec.getLsbD · j) (beq_iff_eq.mp hv)
      simpa [hx, hj] using this
    obtain ⟨i, hi⟩ := List.mem_iff_getElem?.mp ((l.getLsbD_mask hj).mp hm)
    exact ⟨i, hi, by rwa [RegLayout.getLsbD_value h v hi]⟩

/-- Where reserved places read 0 a read returns the word written. -/
theorem RegLayout.read_eq_word (l : RegLayout) (hr : l.reserved = 0#32) (x : BitVec w) : l.read x = l.word x := by
  simp [RegLayout.read, hr]

/-! ### Layouts whose value stands in the word's low bits, as most of PROFILE_LPC2000's do -/

theorem RegLayout.fits_range (hb : l.bits = List.range w) (hw : w ≤ 32) : l.Fits w := by
  refine ⟨by simp [hb], by simp [hb, List.nodup_range], fun b h => ?_⟩
  rw [hb, List.mem_range] at h
  omega

/-- The value is the word's low bits. -/
theorem RegLayout.value_range (hb : l.bits = List.range w) (hw : w ≤ 32) (v : Word) : l.value w v = v.setWidth w := by
  refine RegLayout.value_eq (RegLayout.fits_range hb hw) fun k b h => ?_
  rw [hb] at h
  obtain ⟨hk, rfl⟩ := List.getElem?_eq_some_iff.mp h
  rw [List.length_range] at hk
  simp [hk]

/-- The reserved bits are those from bit w on. -/
theorem RegLayout.clean_range (hb : l.bits = List.range w) (v : Word) :
    l.clean v = decide (v.toNat < 2 ^ w) := by
  have hm : ∀ j < 32, l.mask.getLsbD j = decide (j < w) := fun j hj => Bool.eq_iff_iff.mpr <| by
    rw [l.getLsbD_mask hj, hb, List.mem_range, decide_eq_true_iff]
  apply Bool.eq_iff_iff.mpr
  rw [decide_eq_true_iff, RegLayout.clean, beq_iff_eq]
  constructor
  · intro h
    refine Nat.lt_pow_two_of_testBit _ fun j hj => ?_
    by_cases h32 : j < 32
    · have := congrArg (BitVec.getLsbD · j) h
      rw [BitVec.getLsbD_and, BitVec.getLsbD_not, hm j h32, decide_eq_false (Nat.not_lt.mpr hj)] at this
      rw [BitVec.testBit_toNat]
      simpa [h32] using this
    · exact BitVec.getLsbD_of_ge v j (by omega)
  · intro h
    apply BitVec.eq_of_getLsbD_eq
    intro j hj
    by_cases hjw : j < w
    · simp [hm j hj, hjw]
    · have : v.getLsbD j = false := Nat.testBit_lt_two_pow (lt_of_lt_of_le h (Nat.pow_le_pow_right (by omega)
      (by omega)))
      simp [this]

/-- A word within the value's bits is the word of its value. -/
theorem RegLayout.read_range (hb : l.bits = List.range w) (hw : w ≤ 32) (hr : l.reserved = 0#32) {v : Word}
    (hv : v.toNat < 2 ^ w) : l.read (l.value w v) = v := by
  rw [RegLayout.read_eq_word _ hr, RegLayout.word_value (RegLayout.fits_range hb hw)]
  rw [RegLayout.clean_range hb, decide_eq_true_iff]
  exact hv

/-! ### The register map -/

theorem Reg.mem_all (r : Reg) : r ∈ Reg.all := by cases r <;> decide

/-- No two registers of a legal profile share an address. -/
theorem Profile.Legal.addr_inj {P : Profile} {n : Nat} (h : P.Legal n) {q r : Reg} (e : P.addr q = P.addr r) :
    q = r :=
  List.inj_on_of_nodup_map h.distinct (Reg.mem_all q) (Reg.mem_all r) e

/-- An access at a register's address finds that register. -/
theorem Profile.Legal.regAt_addr {P : Profile} {n : Nat} (h : P.Legal n) (r : Reg) :
    P.regAt (P.addr r) = some r := by
  cases hf : P.regAt (P.addr r) with
  | none => simpa using List.find?_eq_none.mp hf r (Reg.mem_all r)
  | some q => exact congrArg some (h.addr_inj (by simpa using List.find?_some hf))

/-- What an address finds is at that address. -/
theorem Profile.addr_of_regAt {P : Profile} {a : Nat} {r : Reg} (h : P.regAt a = some r) : P.addr r = a := by
  simpa using List.find?_some h

theorem Profile.Legal.accessAligned_addr {P : Profile} {n : Nat} (h : P.Legal n) (r : Reg) :
    accessAligned n (P.addr r) 4 = true := by
  simp [accessAligned, h.reached r (Reg.mem_all r)]

/-! Each bit of a register's value has a place of its own, register by register. -/

section Fits

variable {P : Profile} {n : Nat} (h : P.Legal n)
include h

theorem Profile.Legal.mamcr : P.mamcr.Fits 2 := h.fits .mamcr (Reg.mem_all _)

theorem Profile.Legal.mamtim : P.mamtim.Fits 3 := h.fits .mamtim (Reg.mem_all _)

theorem Profile.Legal.pllcon : P.pllcon.Fits 2 := h.fits .pllcon (Reg.mem_all _)

theorem Profile.Legal.pllcfg : P.pllcfg.Fits 7 := h.fits .pllcfg (Reg.mem_all _)

theorem Profile.Legal.pllstat : P.pllstat.Fits 10 := h.fits .pllstat (Reg.mem_all _)

theorem Profile.Legal.pllfeed : P.pllfeed.Fits 8 := h.fits .pllfeed (Reg.mem_all _)

theorem Profile.Legal.vpbdiv : P.vpbdiv.Fits 2 := h.fits .vpbdiv (Reg.mem_all _)

theorem Profile.Legal.spcr : P.spcr.Fits 8 := h.fits .spcr (Reg.mem_all _)

theorem Profile.Legal.spsr : P.spsr.Fits 2 := h.fits .spsr (Reg.mem_all _)

theorem Profile.Legal.spdr : P.spdr.Fits 8 := h.fits .spdr (Reg.mem_all _)

theorem Profile.Legal.spccr : P.spccr.Fits 8 := h.fits .spccr (Reg.mem_all _)

theorem Profile.Legal.ioset0 : P.ioset0.Fits 32 := h.fits .ioset0 (Reg.mem_all _)

theorem Profile.Legal.iodir0 : P.iodir0.Fits 32 := h.fits .iodir0 (Reg.mem_all _)

theorem Profile.Legal.ioclr0 : P.ioclr0.Fits 32 := h.fits .ioclr0 (Reg.mem_all _)

theorem Profile.Legal.pinsel0 : P.pinsel0.Fits 32 := h.fits .pinsel0 (Reg.mem_all _)

end Fits

/-- PROFILE_LPC2000 is legal. -/
theorem Profile.lpc2000_legal : Profile.lpc2000.Legal 32 where
  distinct := by decide
  reached := by decide
  fits := by decide

/-- PROFILE_LPC2000 accepts what the operations write. -/
theorem Profile.lpc2000_accepts : Profile.lpc2000.AcceptsOperations where
  pllcon := by decide
  pllcfg := fun _ => rfl
  mamtim := by decide
  spcr := by decide
  spccr := fun x h8 h2 => by simp [Profile.lpc2000, CodeSet.has, h8, h2]
  outputBit := rfl

/-- PROFILE_LPC2000 resets to what 10_state.md R55 says. -/
theorem Profile.lpc2000_resetsOff : Profile.lpc2000.ResetsOff := by constructor <;> decide

/-- This hardware's parameters are legal. -/
theorem Params.hardware_legal : Params.hardware.Legal where
  profile := Profile.lpc2000_legal
  accepts := Profile.lpc2000_accepts
  reset := Profile.lpc2000_resetsOff
  mamMode := by decide
  mamCycles := by decide
  vpbdivCode := by decide
  spiCcr := by decide
  feeds := by decide
  sciOps := by decide
  pollBudget := by decide
  regAddrBits := rfl
  regValueBits := rfl
  seqLen := rfl

/-! ### Codes and the words BUS_CONFIG writes (20_memory.md R83, 41_serial.md R192) -/

/-- A register takes the word of a code its layout has. -/
theorem CodedLayout.accepts_word {l : CodedLayout} (hl : l.Fits w) {x : BitVec w} (hx : l.codes.has x = true) :
    l.accepts w (l.word x) = true := by
  simp [CodedLayout.accepts, RegLayout.clean_word, RegLayout.value_word hl, hx]

/-- The value of a word is none but a code's once a register has taken it. -/
theorem CodedLayout.has_of_accepts {l : CodedLayout} {v : Word} (h : l.accepts w v = true) :
    l.codes.has (l.value w v) = true := by
  simp only [CodedLayout.accepts, Bool.and_eq_true] at h
  exact h.2

/-- Setting bits in a word sets them in the value it spells. -/
theorem RegLayout.value_or_word (h : l.Fits w) (v : Word) (x : BitVec w) :
    l.value w (v ||| l.word x) = l.value w v ||| x :=
  RegLayout.value_eq h fun _ _ hb => by
    simp [RegLayout.getLsbD_value h v hb, RegLayout.word_at h x hb]

/-- A port of 32 bits in the word's order holds the word itself (10_state.md R36, R46, R47). -/
theorem RegLayout.value_low (a : Nat) (v : Word) : (RegLayout.low a 32).value 32 v = v := by
  rw [RegLayout.value_range rfl (by omega), BitVec.setWidth_eq]

/-- And reads as its value. -/
theorem RegLayout.read_low (a : Nat) (x : Word) : (RegLayout.low a 32).read x = x := by
  have h := RegLayout.read_range (l := RegLayout.low a 32) rfl (by omega) rfl x.isLt
  rwa [RegLayout.value_low] at h

/-! ### Chip-select (30_encoding.md R121) -/

theorem getLsbD_csm (pin : Fin 32) (k : Nat) : (csm pin).getLsbD k = decide (k = pin.val) := by
  have := pin.isLt
  simp only [csm, BitVec.getLsbD_shiftLeft, BitVec.getLsbD_one]
  by_cases h : k = pin.val
  · simp [h, this]
  · by_cases h1 : k < 32 <;> by_cases h2 : k < pin.val <;> simp [h, h1, h2]
    omega

@[simp] theorem csBit_csm (pin : Fin 32) : csBit pin (csm pin) = true := by simp [csBit, getLsbD_csm]

/-- The latch with the chip-select bit set, and nothing else changed. -/
@[simp] theorem csBit_or_csm (pin : Fin 32) (v : Word) : csBit pin (v ||| csm pin) = true := by
  simp [csBit, getLsbD_csm]

/-- The latch with the chip-select bit cleared, and nothing else changed. -/
@[simp] theorem csBit_and_not_csm (pin : Fin 32) (v : Word) : csBit pin (v &&& ~~~csm pin) = false := by
  simp [csBit, getLsbD_csm]

end Sys2Proof.Machine
end

