-- ==== Sys2Proof/Laws/Memory.lean ====
section
/-! SUPPORT. The decoder-register memory: every operation on it keeps the canonical form, a read after a write, and
the echo double's answer (41_serial.md R189). -/

namespace Sys2Proof.Machine

/-- A canonical list lists no address below its bound. -/
theorem Memory.wfFrom_mono {lo lo' : Nat} (m : Memory) (h : lo ≤ lo') (hm : Memory.wfFrom lo' m = true) :
    Memory.wfFrom lo m = true := by
  cases m with
  | nil => rfl
  | cons e rest =>
    obtain ⟨k, v⟩ := e
    simp only [Memory.wfFrom, Bool.and_eq_true, decide_eq_true_eq] at hm ⊢
    exact ⟨⟨by omega, hm.1.2⟩, hm.2⟩

/-- Inserting a register keeps the addresses rising and in range. -/
theorem Memory.insert_wfFrom {lo : Nat} (m : Memory) {k : Nat} (v : Half) (hlo : lo ≤ k) (hk : k < 256)
    (hm : Memory.wfFrom lo m = true) : Memory.wfFrom lo (Memory.insert m k v) = true := by
  induction m generalizing lo with
  | nil => simp [Memory.insert, Memory.wfFrom, hlo, hk]
  | cons e rest ih =>
    obtain ⟨j, u⟩ := e
    simp only [Memory.wfFrom, Bool.and_eq_true, decide_eq_true_eq] at hm
    unfold Memory.insert
    split
    · next h =>
      simp only [Memory.wfFrom, Bool.and_eq_true, decide_eq_true_eq]
      exact ⟨⟨hlo, hk⟩, ⟨by omega, hm.1.2⟩, hm.2⟩
    · split
      · next h =>
        subst h
        simpa only [Memory.wfFrom, Bool.and_eq_true, decide_eq_true_eq] using hm
      · simp only [Memory.wfFrom, Bool.and_eq_true, decide_eq_true_eq]
        exact ⟨hm.1, ih (by omega) hm.2⟩

/-- A write keeps the canonical form. -/
theorem Memory.write_keeps_wf (m : Memory) (a : Byte) (v : Half) (hm : m.wf = true) : (m.write a v).wf = true :=
  Memory.insert_wfFrom m v (Nat.zero_le _) a.isLt hm

/-- What a read at address `b` finds after address `k` has been written. -/
theorem Memory.read_insert (m : Memory) (k : Nat) (v : Half) (b : Byte) :
    (Memory.insert m k v).read b = if k = b.toNat then some v else m.read b := by
  induction m with
  | nil => simp [Memory.insert, Memory.read]
  | cons e rest ih =>
    obtain ⟨j, u⟩ := e
    unfold Memory.insert
    split
    · simp [Memory.read]
    · split
      · next h => subst h; simp only [Memory.read]; split <;> rfl
      · next h => simp only [Memory.read, ih]; split <;> split <;> first | rfl | omega

/-- A written register reads as written. -/
theorem Memory.read_write_same (m : Memory) (a : Byte) (v : Half) : (m.write a v).read a = some v := by
  simp [Memory.write, Memory.read_insert]

/-- A write leaves every other register alone. -/
theorem Memory.read_write_other (m : Memory) {a b : Byte} (v : Half) (h : a ≠ b) : (m.write a v).read b = m.read b := by
  have : a.toNat ≠ b.toNat := fun e => h (BitVec.eq_of_toNat_eq e)
  simp [Memory.write, Memory.read_insert, this]

/-- Taking a value leaves the echo double's registers or writes one. -/
theorem echoTake_regs (par : Params) (regs : Memory) (a : Byte) (v : Half) :
    echoTake par regs a v = regs ∨ ∃ u, echoTake par regs a v = regs.write a u := by
  unfold echoTake
  split
  · exact .inr ⟨_, rfl⟩
  · exact .inl rfl

/-- An answer of the echo double leaves its registers or takes the value of the register a write frame names. -/
theorem echoAnswer_regs (par : Params) (regs : Memory) (sent : List Byte) (tx : Byte) (n : Nat) :
    (echoAnswer par regs sent tx n).2 = regs ∨
      ∃ a hi, sent = [par.sciWriteOp, a, hi] ∧
        (echoAnswer par regs sent tx n).2 = echoTake par regs a (hi ++ tx) := by
  unfold echoAnswer
  split
  · exact .inl rfl
  · next op0 a hi =>
    by_cases h : op0 = par.sciWriteOp
    · subst h; exact .inr ⟨a, hi, rfl, by simp⟩
    · exact .inl (by simp [h])
  · exact .inl rfl

/-- DEVICE never changes (log 12). -/
theorem Dev.answer_device (par : Params) (d : Dev) (trace : List Event) (tx : Byte) (cs : Bool) (n : Nat) :
    (d.answer par trace tx cs n).2.device = d.device := by
  cases d with
  | any => rfl
  | echo regs => simp only [Dev.answer]; split <;> rfl

/-- An answer keeps the oracle's canonical form. -/
theorem Dev.answer_keeps_wf (par : Params) (d : Dev) (trace : List Event) (tx : Byte) (cs : Bool) (n : Nat)
    (h : d.wf = true) : (d.answer par trace tx cs n).2.wf = true := by
  cases d with
  | any => rfl
  | echo regs =>
    simp only [Dev.answer]
    split
    · next sent hs =>
      rcases echoAnswer_regs par regs sent tx n with e | ⟨a, hi, _, e⟩
      · simpa only [Dev.wf, e] using h
      · rcases echoTake_regs par regs a (hi ++ tx) with e' | ⟨u, e'⟩
        · simpa only [Dev.wf, e, e'] using h
        · simpa only [Dev.wf, e, e'] using Memory.write_keeps_wf regs a u h
    · exact h

/-- The oracle is canonical at reset. -/
theorem Device.reset_wf (d : Device) : d.reset.wf = true := by cases d <;> rfl

/-- Reset keeps DEVICE (log 12). -/
theorem Device.reset_device (d : Device) : d.reset.device = d := by cases d <;> rfl

/-- Every register of the oracle is unwritten at reset (41_serial.md R189). -/
theorem Device.reset_unwritten {d : Device} {regs : Memory} (h : d.reset = .echo regs) (a : Byte) :
    regs.read a = none := by
  cases d <;> cases h
  rfl

theorem reset_dev_wf : State.reset.env.dev.wf = true := rfl

/-- The double's answer while a frame of SCI bytes is in progress does not depend on earlier frames: the scan starts
anew at the last CS(0) event. -/
theorem sciInProgress_frame (base : List Event) (op : Nat) (after : List Event) :
    sciInProgress (base ++ .cs false op :: after) = after.foldl sciScan (some []) := by
  simp [sciInProgress, List.foldl_append, sciScan]

end Sys2Proof.Machine
end

