-- ==== Sys2Proof/Laws/State.lean ====
section
/-! SUPPORT. One lemma per part of the state per named update of Machine/Ops.lean, each true by rfl, so that no later
proof unfolds a record update. A group an update leaves alone has one lemma; a group it changes has one per field. -/

namespace Sys2Proof.Machine

/-! ### State.raise -/

@[simp] theorem State.raise_ctrl_opPc (c : Code) (s : State) : (s.raise c).ctrl.opPc = s.ctrl.opPc := rfl
@[simp] theorem State.raise_ctrl_mpc (c : Code) (s : State) : (s.raise c).ctrl.mpc = s.ctrl.mpc := rfl
@[simp] theorem State.raise_ctrl_status (c : Code) (s : State) : (s.raise c).ctrl.status = .faulted := rfl
@[simp] theorem State.raise_ctrl_t (c : Code) (s : State) : (s.raise c).ctrl.t = s.ctrl.t := rfl
@[simp] theorem State.raise_ctrl_hi (c : Code) (s : State) : (s.raise c).ctrl.hi = s.ctrl.hi := rfl
@[simp] theorem State.raise_ctrl_lo (c : Code) (s : State) : (s.raise c).ctrl.lo = s.ctrl.lo := rfl
@[simp] theorem State.raise_ctrl_pollCount (c : Code) (s : State) :
    (s.raise c).ctrl.pollCount = s.ctrl.pollCount := rfl
@[simp] theorem State.raise_ctrl_result (c : Code) (s : State) : (s.raise c).ctrl.result = s.ctrl.result := rfl
@[simp] theorem State.raise_clk (c : Code) (s : State) : (s.raise c).clk = s.clk := rfl
@[simp] theorem State.raise_ser (c : Code) (s : State) : (s.raise c).ser = s.ser := rfl
@[simp] theorem State.raise_env_trace (c : Code) (s : State) : (s.raise c).env.trace = s.env.trace := rfl
@[simp] theorem State.raise_env_results (c : Code) (s : State) : (s.raise c).env.results = s.env.results := rfl
@[simp] theorem State.raise_env_fault (c : Code) (s : State) :
    (s.raise c).env.fault = some { code := c, opPc := s.ctrl.opPc } := rfl
@[simp] theorem State.raise_env_dev (c : Code) (s : State) : (s.raise c).env.dev = s.env.dev := rfl
@[simp] theorem State.raise_setup (c : Code) (s : State) : (s.raise c).setup = s.setup := rfl
@[simp] theorem State.raise_moves (c : Code) (s : State) : (s.raise c).moves = s.moves := rfl
@[simp] theorem State.raise_draws (c : Code) (s : State) : (s.raise c).draws = s.draws := rfl

/-! ### State.advance -/

@[simp] theorem State.advance_ctrl_opPc (s : State) : s.advance.ctrl.opPc = s.ctrl.opPc := rfl
@[simp] theorem State.advance_ctrl_mpc (s : State) : s.advance.ctrl.mpc = s.ctrl.mpc + 1 := rfl
@[simp] theorem State.advance_ctrl_status (s : State) : s.advance.ctrl.status = s.ctrl.status := rfl
@[simp] theorem State.advance_ctrl_t (s : State) : s.advance.ctrl.t = s.ctrl.t := rfl
@[simp] theorem State.advance_ctrl_hi (s : State) : s.advance.ctrl.hi = s.ctrl.hi := rfl
@[simp] theorem State.advance_ctrl_lo (s : State) : s.advance.ctrl.lo = s.ctrl.lo := rfl
@[simp] theorem State.advance_ctrl_pollCount (s : State) : s.advance.ctrl.pollCount = s.ctrl.pollCount := rfl
@[simp] theorem State.advance_ctrl_result (s : State) : s.advance.ctrl.result = s.ctrl.result := rfl
@[simp] theorem State.advance_clk (s : State) : s.advance.clk = s.clk := rfl
@[simp] theorem State.advance_ser (s : State) : s.advance.ser = s.ser := rfl
@[simp] theorem State.advance_env (s : State) : s.advance.env = s.env := rfl
@[simp] theorem State.advance_setup (s : State) : s.advance.setup = s.setup := rfl
@[simp] theorem State.advance_moves (s : State) : s.advance.moves = s.moves := rfl
@[simp] theorem State.advance_draws (s : State) : s.advance.draws = s.draws := rfl

/-! ### State.complete -/

@[simp] theorem State.complete_ctrl_opPc (n : Nat) (s : State) : (s.complete n).ctrl.opPc = s.ctrl.opPc + n := rfl
@[simp] theorem State.complete_ctrl_mpc (n : Nat) (s : State) : (s.complete n).ctrl.mpc = 0 := rfl
@[simp] theorem State.complete_ctrl_status (n : Nat) (s : State) :
    (s.complete n).ctrl.status = if s.ctrl.opPc + n = s.setup.program.length then .ended else s.ctrl.status := rfl
@[simp] theorem State.complete_ctrl_t (n : Nat) (s : State) : (s.complete n).ctrl.t = s.ctrl.t := rfl
@[simp] theorem State.complete_ctrl_hi (n : Nat) (s : State) : (s.complete n).ctrl.hi = s.ctrl.hi := rfl
@[simp] theorem State.complete_ctrl_lo (n : Nat) (s : State) : (s.complete n).ctrl.lo = s.ctrl.lo := rfl
@[simp] theorem State.complete_ctrl_pollCount (n : Nat) (s : State) :
    (s.complete n).ctrl.pollCount = s.ctrl.pollCount := rfl
@[simp] theorem State.complete_ctrl_result (n : Nat) (s : State) : (s.complete n).ctrl.result = s.ctrl.result := rfl
@[simp] theorem State.complete_clk (n : Nat) (s : State) : (s.complete n).clk = s.clk := rfl
@[simp] theorem State.complete_ser (n : Nat) (s : State) : (s.complete n).ser = s.ser := rfl
@[simp] theorem State.complete_env (n : Nat) (s : State) : (s.complete n).env = s.env := rfl
@[simp] theorem State.complete_setup (n : Nat) (s : State) : (s.complete n).setup = s.setup := rfl
@[simp] theorem State.complete_moves (n : Nat) (s : State) : (s.complete n).moves = s.moves := rfl
@[simp] theorem State.complete_draws (n : Nat) (s : State) : (s.complete n).draws = s.draws := rfl

/-! ### State.setSeq -/

@[simp] theorem State.setSeq_ctrl (q : SeqState) (s : State) : (s.setSeq q).ctrl = s.ctrl := rfl
@[simp] theorem State.setSeq_clk (q : SeqState) (s : State) : (s.setSeq q).clk = { s.clk with seqState := q } := rfl
@[simp] theorem State.setSeq_ser (q : SeqState) (s : State) : (s.setSeq q).ser = s.ser := rfl
@[simp] theorem State.setSeq_env (q : SeqState) (s : State) : (s.setSeq q).env = s.env := rfl
@[simp] theorem State.setSeq_setup (q : SeqState) (s : State) : (s.setSeq q).setup = s.setup := rfl
@[simp] theorem State.setSeq_moves (q : SeqState) (s : State) : (s.setSeq q).moves = s.moves := rfl
@[simp] theorem State.setSeq_draws (q : SeqState) (s : State) : (s.setSeq q).draws = s.draws := rfl

/-! ### State.setLink -/

@[simp] theorem State.setLink_ctrl (q : LinkState) (s : State) : (s.setLink q).ctrl = s.ctrl := rfl
@[simp] theorem State.setLink_clk (q : LinkState) (s : State) : (s.setLink q).clk = s.clk := rfl
@[simp] theorem State.setLink_ser (q : LinkState) (s : State) : (s.setLink q).ser = { s.ser with linkState := q } := rfl
@[simp] theorem State.setLink_env (q : LinkState) (s : State) : (s.setLink q).env = s.env := rfl
@[simp] theorem State.setLink_setup (q : LinkState) (s : State) : (s.setLink q).setup = s.setup := rfl
@[simp] theorem State.setLink_moves (q : LinkState) (s : State) : (s.setLink q).moves = s.moves := rfl
@[simp] theorem State.setLink_draws (q : LinkState) (s : State) : (s.setLink q).draws = s.draws := rfl

/-! ### State.setT -/

@[simp] theorem State.setT_ctrl_opPc (v : Word) (s : State) : (s.setT v).ctrl.opPc = s.ctrl.opPc := rfl
@[simp] theorem State.setT_ctrl_mpc (v : Word) (s : State) : (s.setT v).ctrl.mpc = s.ctrl.mpc := rfl
@[simp] theorem State.setT_ctrl_status (v : Word) (s : State) : (s.setT v).ctrl.status = s.ctrl.status := rfl
@[simp] theorem State.setT_ctrl_t (v : Word) (s : State) : (s.setT v).ctrl.t = v := rfl
@[simp] theorem State.setT_ctrl_hi (v : Word) (s : State) : (s.setT v).ctrl.hi = s.ctrl.hi := rfl
@[simp] theorem State.setT_ctrl_lo (v : Word) (s : State) : (s.setT v).ctrl.lo = s.ctrl.lo := rfl
@[simp] theorem State.setT_ctrl_pollCount (v : Word) (s : State) : (s.setT v).ctrl.pollCount = s.ctrl.pollCount := rfl
@[simp] theorem State.setT_ctrl_result (v : Word) (s : State) : (s.setT v).ctrl.result = s.ctrl.result := rfl
@[simp] theorem State.setT_clk (v : Word) (s : State) : (s.setT v).clk = s.clk := rfl
@[simp] theorem State.setT_ser (v : Word) (s : State) : (s.setT v).ser = s.ser := rfl
@[simp] theorem State.setT_env (v : Word) (s : State) : (s.setT v).env = s.env := rfl
@[simp] theorem State.setT_setup (v : Word) (s : State) : (s.setT v).setup = s.setup := rfl
@[simp] theorem State.setT_moves (v : Word) (s : State) : (s.setT v).moves = s.moves := rfl
@[simp] theorem State.setT_draws (v : Word) (s : State) : (s.setT v).draws = s.draws := rfl

/-! ### State.setHi -/

@[simp] theorem State.setHi_ctrl_opPc (b : Byte) (s : State) : (s.setHi b).ctrl.opPc = s.ctrl.opPc := rfl
@[simp] theorem State.setHi_ctrl_mpc (b : Byte) (s : State) : (s.setHi b).ctrl.mpc = s.ctrl.mpc := rfl
@[simp] theorem State.setHi_ctrl_status (b : Byte) (s : State) : (s.setHi b).ctrl.status = s.ctrl.status := rfl
@[simp] theorem State.setHi_ctrl_t (b : Byte) (s : State) : (s.setHi b).ctrl.t = s.ctrl.t := rfl
@[simp] theorem State.setHi_ctrl_hi (b : Byte) (s : State) : (s.setHi b).ctrl.hi = b := rfl
@[simp] theorem State.setHi_ctrl_lo (b : Byte) (s : State) : (s.setHi b).ctrl.lo = s.ctrl.lo := rfl
@[simp] theorem State.setHi_ctrl_pollCount (b : Byte) (s : State) :
    (s.setHi b).ctrl.pollCount = s.ctrl.pollCount := rfl
@[simp] theorem State.setHi_ctrl_result (b : Byte) (s : State) : (s.setHi b).ctrl.result = s.ctrl.result := rfl
@[simp] theorem State.setHi_clk (b : Byte) (s : State) : (s.setHi b).clk = s.clk := rfl
@[simp] theorem State.setHi_ser (b : Byte) (s : State) : (s.setHi b).ser = s.ser := rfl
@[simp] theorem State.setHi_env (b : Byte) (s : State) : (s.setHi b).env = s.env := rfl
@[simp] theorem State.setHi_setup (b : Byte) (s : State) : (s.setHi b).setup = s.setup := rfl
@[simp] theorem State.setHi_moves (b : Byte) (s : State) : (s.setHi b).moves = s.moves := rfl
@[simp] theorem State.setHi_draws (b : Byte) (s : State) : (s.setHi b).draws = s.draws := rfl

/-! ### State.setLo -/

@[simp] theorem State.setLo_ctrl_opPc (b : Byte) (s : State) : (s.setLo b).ctrl.opPc = s.ctrl.opPc := rfl
@[simp] theorem State.setLo_ctrl_mpc (b : Byte) (s : State) : (s.setLo b).ctrl.mpc = s.ctrl.mpc := rfl
@[simp] theorem State.setLo_ctrl_status (b : Byte) (s : State) : (s.setLo b).ctrl.status = s.ctrl.status := rfl
@[simp] theorem State.setLo_ctrl_t (b : Byte) (s : State) : (s.setLo b).ctrl.t = s.ctrl.t := rfl
@[simp] theorem State.setLo_ctrl_hi (b : Byte) (s : State) : (s.setLo b).ctrl.hi = s.ctrl.hi := rfl
@[simp] theorem State.setLo_ctrl_lo (b : Byte) (s : State) : (s.setLo b).ctrl.lo = b := rfl
@[simp] theorem State.setLo_ctrl_pollCount (b : Byte) (s : State) :
    (s.setLo b).ctrl.pollCount = s.ctrl.pollCount := rfl
@[simp] theorem State.setLo_ctrl_result (b : Byte) (s : State) : (s.setLo b).ctrl.result = s.ctrl.result := rfl
@[simp] theorem State.setLo_clk (b : Byte) (s : State) : (s.setLo b).clk = s.clk := rfl
@[simp] theorem State.setLo_ser (b : Byte) (s : State) : (s.setLo b).ser = s.ser := rfl
@[simp] theorem State.setLo_env (b : Byte) (s : State) : (s.setLo b).env = s.env := rfl
@[simp] theorem State.setLo_setup (b : Byte) (s : State) : (s.setLo b).setup = s.setup := rfl
@[simp] theorem State.setLo_moves (b : Byte) (s : State) : (s.setLo b).moves = s.moves := rfl
@[simp] theorem State.setLo_draws (b : Byte) (s : State) : (s.setLo b).draws = s.draws := rfl

/-! ### State.setPollCount -/

@[simp] theorem State.setPollCount_ctrl_opPc (n : Nat) (s : State) : (s.setPollCount n).ctrl.opPc = s.ctrl.opPc := rfl
@[simp] theorem State.setPollCount_ctrl_mpc (n : Nat) (s : State) : (s.setPollCount n).ctrl.mpc = s.ctrl.mpc := rfl
@[simp] theorem State.setPollCount_ctrl_status (n : Nat) (s : State) :
    (s.setPollCount n).ctrl.status = s.ctrl.status := rfl
@[simp] theorem State.setPollCount_ctrl_t (n : Nat) (s : State) : (s.setPollCount n).ctrl.t = s.ctrl.t := rfl
@[simp] theorem State.setPollCount_ctrl_hi (n : Nat) (s : State) : (s.setPollCount n).ctrl.hi = s.ctrl.hi := rfl
@[simp] theorem State.setPollCount_ctrl_lo (n : Nat) (s : State) : (s.setPollCount n).ctrl.lo = s.ctrl.lo := rfl
@[simp] theorem State.setPollCount_ctrl_pollCount (n : Nat) (s : State) : (s.setPollCount n).ctrl.pollCount = n := rfl
@[simp] theorem State.setPollCount_ctrl_result (n : Nat) (s : State) :
    (s.setPollCount n).ctrl.result = s.ctrl.result := rfl
@[simp] theorem State.setPollCount_clk (n : Nat) (s : State) : (s.setPollCount n).clk = s.clk := rfl
@[simp] theorem State.setPollCount_ser (n : Nat) (s : State) : (s.setPollCount n).ser = s.ser := rfl
@[simp] theorem State.setPollCount_env (n : Nat) (s : State) : (s.setPollCount n).env = s.env := rfl
@[simp] theorem State.setPollCount_setup (n : Nat) (s : State) : (s.setPollCount n).setup = s.setup := rfl
@[simp] theorem State.setPollCount_moves (n : Nat) (s : State) : (s.setPollCount n).moves = s.moves := rfl
@[simp] theorem State.setPollCount_draws (n : Nat) (s : State) : (s.setPollCount n).draws = s.draws := rfl

/-! ### State.giveResult -/

@[simp] theorem State.giveResult_ctrl_opPc (v : Half) (s : State) : (s.giveResult v).ctrl.opPc = s.ctrl.opPc := rfl
@[simp] theorem State.giveResult_ctrl_mpc (v : Half) (s : State) : (s.giveResult v).ctrl.mpc = s.ctrl.mpc := rfl
@[simp] theorem State.giveResult_ctrl_status (v : Half) (s : State) :
    (s.giveResult v).ctrl.status = s.ctrl.status := rfl
@[simp] theorem State.giveResult_ctrl_t (v : Half) (s : State) : (s.giveResult v).ctrl.t = s.ctrl.t := rfl
@[simp] theorem State.giveResult_ctrl_hi (v : Half) (s : State) : (s.giveResult v).ctrl.hi = s.ctrl.hi := rfl
@[simp] theorem State.giveResult_ctrl_lo (v : Half) (s : State) : (s.giveResult v).ctrl.lo = s.ctrl.lo := rfl
@[simp] theorem State.giveResult_ctrl_pollCount (v : Half) (s : State) :
    (s.giveResult v).ctrl.pollCount = s.ctrl.pollCount := rfl
@[simp] theorem State.giveResult_ctrl_result (v : Half) (s : State) : (s.giveResult v).ctrl.result = v := rfl
@[simp] theorem State.giveResult_clk (v : Half) (s : State) : (s.giveResult v).clk = s.clk := rfl
@[simp] theorem State.giveResult_ser (v : Half) (s : State) : (s.giveResult v).ser = s.ser := rfl
@[simp] theorem State.giveResult_env_trace (v : Half) (s : State) : (s.giveResult v).env.trace = s.env.trace := rfl
@[simp] theorem State.giveResult_env_results (v : Half) (s : State) :
    (s.giveResult v).env.results = s.env.results ++ [v] := rfl
@[simp] theorem State.giveResult_env_fault (v : Half) (s : State) : (s.giveResult v).env.fault = s.env.fault := rfl
@[simp] theorem State.giveResult_env_dev (v : Half) (s : State) : (s.giveResult v).env.dev = s.env.dev := rfl
@[simp] theorem State.giveResult_setup (v : Half) (s : State) : (s.giveResult v).setup = s.setup := rfl
@[simp] theorem State.giveResult_moves (v : Half) (s : State) : (s.giveResult v).moves = s.moves := rfl
@[simp] theorem State.giveResult_draws (v : Half) (s : State) : (s.giveResult v).draws = s.draws := rfl

/-! ### State.emit -/

@[simp] theorem State.emit_ctrl (e : Event) (s : State) : (s.emit e).ctrl = s.ctrl := rfl
@[simp] theorem State.emit_clk (e : Event) (s : State) : (s.emit e).clk = s.clk := rfl
@[simp] theorem State.emit_ser (e : Event) (s : State) : (s.emit e).ser = s.ser := rfl
@[simp] theorem State.emit_env_trace (e : Event) (s : State) : (s.emit e).env.trace = s.env.trace ++ [e] := rfl
@[simp] theorem State.emit_env_results (e : Event) (s : State) : (s.emit e).env.results = s.env.results := rfl
@[simp] theorem State.emit_env_fault (e : Event) (s : State) : (s.emit e).env.fault = s.env.fault := rfl
@[simp] theorem State.emit_env_dev (e : Event) (s : State) : (s.emit e).env.dev = s.env.dev := rfl
@[simp] theorem State.emit_setup (e : Event) (s : State) : (s.emit e).setup = s.setup := rfl
@[simp] theorem State.emit_moves (e : Event) (s : State) : (s.emit e).moves = s.moves := rfl
@[simp] theorem State.emit_draws (e : Event) (s : State) : (s.emit e).draws = s.draws := rfl

/-! ### State.disarm -/

@[simp] theorem State.disarm_ctrl (s : State) : s.disarm.ctrl = s.ctrl := rfl
@[simp] theorem State.disarm_clk (s : State) : s.disarm.clk = s.clk.disarm := rfl
@[simp] theorem State.disarm_ser (s : State) : s.disarm.ser = s.ser := rfl
@[simp] theorem State.disarm_env (s : State) : s.disarm.env = s.env := rfl
@[simp] theorem State.disarm_setup (s : State) : s.disarm.setup = s.setup := rfl
@[simp] theorem State.disarm_moves (s : State) : s.disarm.moves = s.moves := rfl
@[simp] theorem State.disarm_draws (s : State) : s.disarm.draws = s.draws := rfl

/-! ### Clk.commit -/

@[simp] theorem Clk.commit_pllconHold (c : Clk) : c.commit.pllconHold = c.pllconHold := rfl
@[simp] theorem Clk.commit_pllconAct (c : Clk) : c.commit.pllconAct = c.pllconHold := rfl
@[simp] theorem Clk.commit_pllcfgHold (c : Clk) : c.commit.pllcfgHold = c.pllcfgHold := rfl
@[simp] theorem Clk.commit_pllcfgAct (c : Clk) : c.commit.pllcfgAct = c.pllcfgHold := rfl
@[simp] theorem Clk.commit_plock (c : Clk) :
    c.commit.plock = plockAfter c.pllcfgAct c.pllcfgHold c.pllconHold c.plock := rfl
@[simp] theorem Clk.commit_feedState (c : Clk) : c.commit.feedState = c.feedState := rfl
@[simp] theorem Clk.commit_mamcr (c : Clk) : c.commit.mamcr = c.mamcr := rfl
@[simp] theorem Clk.commit_mamtim (c : Clk) : c.commit.mamtim = c.mamtim := rfl
@[simp] theorem Clk.commit_vpbdiv (c : Clk) : c.commit.vpbdiv = c.vpbdiv := rfl
@[simp] theorem Clk.commit_seqState (c : Clk) : c.commit.seqState = c.seqState := rfl

/-! ### Clk.disarm -/

@[simp] theorem Clk.disarm_pllconHold (c : Clk) : c.disarm.pllconHold = c.pllconHold := rfl
@[simp] theorem Clk.disarm_pllconAct (c : Clk) : c.disarm.pllconAct = c.pllconAct := rfl
@[simp] theorem Clk.disarm_pllcfgHold (c : Clk) : c.disarm.pllcfgHold = c.pllcfgHold := rfl
@[simp] theorem Clk.disarm_pllcfgAct (c : Clk) : c.disarm.pllcfgAct = c.pllcfgAct := rfl
@[simp] theorem Clk.disarm_plock (c : Clk) : c.disarm.plock = c.plock := rfl
@[simp] theorem Clk.disarm_feedState (c : Clk) : c.disarm.feedState = .idle := rfl
@[simp] theorem Clk.disarm_mamcr (c : Clk) : c.disarm.mamcr = c.mamcr := rfl
@[simp] theorem Clk.disarm_mamtim (c : Clk) : c.disarm.mamtim = c.mamtim := rfl
@[simp] theorem Clk.disarm_vpbdiv (c : Clk) : c.disarm.vpbdiv = c.vpbdiv := rfl
@[simp] theorem Clk.disarm_seqState (c : Clk) : c.disarm.seqState = c.seqState := rfl

/-! ### Clk.lock -/

@[simp] theorem Clk.lock_pllconHold (c : Clk) : c.lock.pllconHold = c.pllconHold := rfl
@[simp] theorem Clk.lock_pllconAct (c : Clk) : c.lock.pllconAct = c.pllconAct := rfl
@[simp] theorem Clk.lock_pllcfgHold (c : Clk) : c.lock.pllcfgHold = c.pllcfgHold := rfl
@[simp] theorem Clk.lock_pllcfgAct (c : Clk) : c.lock.pllcfgAct = c.pllcfgAct := rfl
@[simp] theorem Clk.lock_plock (c : Clk) : c.lock.plock = true := rfl
@[simp] theorem Clk.lock_feedState (c : Clk) : c.lock.feedState = c.feedState := rfl
@[simp] theorem Clk.lock_mamcr (c : Clk) : c.lock.mamcr = c.mamcr := rfl
@[simp] theorem Clk.lock_mamtim (c : Clk) : c.lock.mamtim = c.mamtim := rfl
@[simp] theorem Clk.lock_vpbdiv (c : Clk) : c.lock.vpbdiv = c.vpbdiv := rfl
@[simp] theorem Clk.lock_seqState (c : Clk) : c.lock.seqState = c.seqState := rfl

/-! ### Ser.arm -/

@[simp] theorem Ser.arm_pinsel0 (r : Ser) : r.arm.pinsel0 = r.pinsel0 := rfl
@[simp] theorem Ser.arm_spcr (r : Ser) : r.arm.spcr = r.spcr := rfl
@[simp] theorem Ser.arm_spccr (r : Ser) : r.arm.spccr = r.spccr := rfl
@[simp] theorem Ser.arm_spdrTx (r : Ser) : r.arm.spdrTx = r.spdrTx := rfl
@[simp] theorem Ser.arm_spdrRx (r : Ser) : r.arm.spdrRx = r.spdrRx := rfl
@[simp] theorem Ser.arm_spif (r : Ser) : r.arm.spif = r.spif := rfl
@[simp] theorem Ser.arm_wcol (r : Ser) : r.arm.wcol = r.wcol := rfl
@[simp] theorem Ser.arm_spifArmed (r : Ser) : r.arm.spifArmed = (r.spifArmed || r.spif || r.wcol) := rfl
@[simp] theorem Ser.arm_busy (r : Ser) : r.arm.busy = r.busy := rfl
@[simp] theorem Ser.arm_iodir0 (r : Ser) : r.arm.iodir0 = r.iodir0 := rfl
@[simp] theorem Ser.arm_iolatch0 (r : Ser) : r.arm.iolatch0 = r.iolatch0 := rfl
@[simp] theorem Ser.arm_linkState (r : Ser) : r.arm.linkState = r.linkState := rfl

/-! ### Ser.queue -/

@[simp] theorem Ser.queue_pinsel0 (b : Byte) (r : Ser) : (r.queue b).pinsel0 = r.pinsel0 := rfl
@[simp] theorem Ser.queue_spcr (b : Byte) (r : Ser) : (r.queue b).spcr = r.spcr := rfl
@[simp] theorem Ser.queue_spccr (b : Byte) (r : Ser) : (r.queue b).spccr = r.spccr := rfl
@[simp] theorem Ser.queue_spdrTx (b : Byte) (r : Ser) : (r.queue b).spdrTx = b := rfl
@[simp] theorem Ser.queue_spdrRx (b : Byte) (r : Ser) : (r.queue b).spdrRx = r.spdrRx := rfl
@[simp] theorem Ser.queue_spif (b : Byte) (r : Ser) : (r.queue b).spif = r.spif := rfl
@[simp] theorem Ser.queue_wcol (b : Byte) (r : Ser) : (r.queue b).wcol = r.wcol := rfl
@[simp] theorem Ser.queue_spifArmed (b : Byte) (r : Ser) : (r.queue b).spifArmed = r.spifArmed := rfl
@[simp] theorem Ser.queue_busy (b : Byte) (r : Ser) : (r.queue b).busy = true := rfl
@[simp] theorem Ser.queue_iodir0 (b : Byte) (r : Ser) : (r.queue b).iodir0 = r.iodir0 := rfl
@[simp] theorem Ser.queue_iolatch0 (b : Byte) (r : Ser) : (r.queue b).iolatch0 = r.iolatch0 := rfl
@[simp] theorem Ser.queue_linkState (b : Byte) (r : Ser) : (r.queue b).linkState = r.linkState := rfl

/-! ### Ser.finish -/

@[simp] theorem Ser.finish_pinsel0 (b : Byte) (r : Ser) : (r.finish b).pinsel0 = r.pinsel0 := rfl
@[simp] theorem Ser.finish_spcr (b : Byte) (r : Ser) : (r.finish b).spcr = r.spcr := rfl
@[simp] theorem Ser.finish_spccr (b : Byte) (r : Ser) : (r.finish b).spccr = r.spccr := rfl
@[simp] theorem Ser.finish_spdrTx (b : Byte) (r : Ser) : (r.finish b).spdrTx = r.spdrTx := rfl
@[simp] theorem Ser.finish_spdrRx (b : Byte) (r : Ser) : (r.finish b).spdrRx = b := rfl
@[simp] theorem Ser.finish_spif (b : Byte) (r : Ser) : (r.finish b).spif = true := rfl
@[simp] theorem Ser.finish_wcol (b : Byte) (r : Ser) : (r.finish b).wcol = r.wcol := rfl
@[simp] theorem Ser.finish_spifArmed (b : Byte) (r : Ser) : (r.finish b).spifArmed = r.spifArmed := rfl
@[simp] theorem Ser.finish_busy (b : Byte) (r : Ser) : (r.finish b).busy = false := rfl
@[simp] theorem Ser.finish_iodir0 (b : Byte) (r : Ser) : (r.finish b).iodir0 = r.iodir0 := rfl
@[simp] theorem Ser.finish_iolatch0 (b : Byte) (r : Ser) : (r.finish b).iolatch0 = r.iolatch0 := rfl
@[simp] theorem Ser.finish_linkState (b : Byte) (r : Ser) : (r.finish b).linkState = r.linkState := rfl

/-! ### Ser.clearArmed -/

@[simp] theorem Ser.clearArmed_pinsel0 (r : Ser) : r.clearArmed.pinsel0 = r.pinsel0 := by
  unfold Ser.clearArmed; split <;> rfl
@[simp] theorem Ser.clearArmed_spcr (r : Ser) : r.clearArmed.spcr = r.spcr := by
  unfold Ser.clearArmed; split <;> rfl
@[simp] theorem Ser.clearArmed_spccr (r : Ser) : r.clearArmed.spccr = r.spccr := by
  unfold Ser.clearArmed; split <;> rfl
@[simp] theorem Ser.clearArmed_spdrTx (r : Ser) : r.clearArmed.spdrTx = r.spdrTx := by
  unfold Ser.clearArmed; split <;> rfl
@[simp] theorem Ser.clearArmed_spdrRx (r : Ser) : r.clearArmed.spdrRx = r.spdrRx := by
  unfold Ser.clearArmed; split <;> rfl
@[simp] theorem Ser.clearArmed_spif (r : Ser) : r.clearArmed.spif = (r.spif && !r.spifArmed) := by
  unfold Ser.clearArmed; cases h : r.spifArmed <;> simp
@[simp] theorem Ser.clearArmed_wcol (r : Ser) : r.clearArmed.wcol = (r.wcol && !r.spifArmed) := by
  unfold Ser.clearArmed; cases h : r.spifArmed <;> simp
@[simp] theorem Ser.clearArmed_spifArmed (r : Ser) : r.clearArmed.spifArmed = false := by
  unfold Ser.clearArmed; cases h : r.spifArmed <;> simp [h]
@[simp] theorem Ser.clearArmed_busy (r : Ser) : r.clearArmed.busy = r.busy := by
  unfold Ser.clearArmed; split <;> rfl
@[simp] theorem Ser.clearArmed_iodir0 (r : Ser) : r.clearArmed.iodir0 = r.iodir0 := by
  unfold Ser.clearArmed; split <;> rfl
@[simp] theorem Ser.clearArmed_iolatch0 (r : Ser) : r.clearArmed.iolatch0 = r.iolatch0 := by
  unfold Ser.clearArmed; split <;> rfl
@[simp] theorem Ser.clearArmed_linkState (r : Ser) : r.clearArmed.linkState = r.linkState := by
  unfold Ser.clearArmed; split <;> rfl

end Sys2Proof.Machine
end

