-- ==== Sys2Proof/Laws/Ops.lean ====
section
/-! SUPPORT. One spec lemma per shared operation of Machine/Ops.lean: what it answers, so that later proofs cite it
instead of unfolding it. First what holds of any parameters, then what legal ones give. -/

namespace Sys2Proof.Machine

/-! ### Accesses, whatever the parameters -/

/-- A read is refused without effect or reads one register. -/
theorem memRead_cases (addr width : Nat) (s : State) :
    memRead addr width s = .bad .unsupportedAccess s ∨ ∃ r, memRead addr width s = regRead r s := by
  unfold memRead
  split
  · split
    · next r _ => exact .inr ⟨r, rfl⟩
    · exact .inl rfl
  · exact .inl rfl

/-- A write is refused without effect or writes one register. -/
theorem memWrite_cases (addr width : Nat) (v : Word) (s : State) :
    memWrite addr width v s = .bad .unsupportedAccess s ∨ ∃ r, memWrite addr width v s = regWrite r v s := by
  unfold memWrite
  split
  · split
    · next r _ => exact .inr ⟨r, rfl⟩
    · exact .inl rfl
  · exact .inl rfl

/-- A read micro-step goes on with the value read or raises the code of its access. -/
theorem microRead_cases (r : Reg) (k : Word → State → State) (s : State) :
    (∃ q, microRead r k s = .next (k (regValue q s) ((readEffect q s).disarm.setT (regValue q s)))) ∨
      microRead r k s = .next (s.raise .unsupportedAccess) := by
  unfold microRead
  rcases memRead_cases (s.setup.params.profile.addr r) 4 s with e | ⟨q, e⟩ <;> rw [e]
  · exact .inr rfl
  · exact .inl ⟨q, rfl⟩

/-- A write micro-step goes on from what one register's write leaves or raises the code of its access. -/
theorem microWrite_cases (r : Reg) (v : Word) (k : State → State) (s : State) :
    (∃ q t, regWrite q v s = .ok () t ∧ microWrite r v k s = .next (k t)) ∨
      (∃ q c t, regWrite q v s = .bad c t ∧ microWrite r v k s = .next (t.raise c)) ∨
      microWrite r v k s = .next (s.raise .unsupportedAccess) := by
  unfold microWrite
  rcases memWrite_cases (s.setup.params.profile.addr r) 4 v s with e | ⟨q, e⟩ <;> rw [e]
  · exact .inr (.inr rfl)
  · cases h : regWrite q v s with
    | ok u t => exact .inl ⟨q, t, h, rfl⟩
    | bad c t => exact .inr (.inl ⟨q, c, t, h, rfl⟩)

/-- A failed poll read either spins or raises the poll's timeout code (00_scope.md R11). -/
theorem pollFailed_cases (c : Code) (s : State) :
    s.pollFailed c = s.setPollCount (s.ctrl.pollCount + 1) ∨
      (s.setup.params.pollBudget = some (s.ctrl.pollCount + 1) ∧
        s.pollFailed c = (s.setPollCount (s.ctrl.pollCount + 1)).raise c) := by
  unfold State.pollFailed budgetSpent
  by_cases h : s.setup.params.pollBudget = some (s.ctrl.pollCount + 1) <;> simp [h]

/-! ### Accesses with legal parameters -/

section Legal

variable {s : State} (h : s.setup.params.Legal)
include h

theorem memRead_reg (r : Reg) : memRead (s.setup.params.profile.addr r) 4 s = regRead r s := by
  simp [memRead, h.profile.accessAligned_addr, h.profile.regAt_addr]

theorem memWrite_reg (r : Reg) (v : Word) : memWrite (s.setup.params.profile.addr r) 4 v s = regWrite r v s := by
  simp [memWrite, h.profile.accessAligned_addr, h.profile.regAt_addr]

/-- A read micro-step of a register always completes. -/
theorem microRead_eq (r : Reg) (k : Word → State → State) :
    microRead r k s = .next (k (regValue r s) ((readEffect r s).disarm.setT (regValue r s))) := by
  simp [microRead, memRead_reg h, regRead]

theorem poll_eq (r : Reg) (bit : Nat) (c : Code) (k : State → State) :
    poll r bit c k s =
      .next (if (regValue r s).getLsbD bit then
          k (((readEffect r s).disarm.setT (regValue r s)).setPollCount 0)
        else ((readEffect r s).disarm.setT (regValue r s)).pollFailed c) := by
  simp [poll, microRead_eq h]

/-- A write of a register whose store cannot fail takes effect and aborts the feed. -/
theorem microWrite_ok {r : Reg} {v : Word} {t : State} (k : State → State)
    (ha : r.accepts s.setup.params.profile v = true) (hr : r ≠ .pllfeed) (hs : storeReg r v s = .ok () t) :
    microWrite r v k s = .next (k t.disarm) := by
  simp [microWrite, memWrite_reg h, regWrite, ha, hs, feedAbort, hr]

/-- A refused write changes nothing but the fault record (20_memory.md R83). -/
theorem microWrite_refused {r : Reg} {v : Word} (k : State → State)
    (ha : r.accepts s.setup.params.profile v = false) :
    microWrite r v k s = .next (s.raise .unsupportedAccess) := by
  simp [microWrite, memWrite_reg h, regWrite, ha]

/-! ### The registers the operations write (30_encoding.md R115 to R120) -/

theorem microWrite_mamcr (k : State → State) {x : BitVec 2} (hx : s.setup.params.profile.mamcr.codes.has x = true) :
    microWrite .mamcr (s.setup.params.profile.mamcr.word x) k s =
      .next (k ({ s with clk := { s.clk with mamcr := x } } : State).disarm) :=
  microWrite_ok h k (CodedLayout.accepts_word h.profile.mamcr hx) (by decide)
    (by simp [storeReg, RegLayout.value_word h.profile.mamcr])

theorem microWrite_mamtim (k : State → State) {x : BitVec 3} (hx : x ≠ 0#3) :
    microWrite .mamtim (s.setup.params.profile.mamtim.word x) k s =
      .next (k ({ s with clk := { s.clk with mamtim := x } } : State).disarm) :=
  microWrite_ok h k (CodedLayout.accepts_word h.profile.mamtim (h.accepts.mamtim x hx)) (by decide)
    (by simp [storeReg, RegLayout.value_word h.profile.mamtim])

theorem microWrite_vpbdiv (k : State → State) {x : BitVec 2} (hx : s.setup.params.profile.vpbdiv.codes.has x = true) :
    microWrite .vpbdiv (s.setup.params.profile.vpbdiv.word x) k s =
      .next (k ({ s with clk := { s.clk with vpbdiv := x } } : State).disarm) :=
  microWrite_ok h k (CodedLayout.accepts_word h.profile.vpbdiv hx) (by decide)
    (by simp [storeReg, RegLayout.value_word h.profile.vpbdiv])

theorem microWrite_pllcon (k : State → State) {x : BitVec 2} (hx : s.setup.params.profile.pllcon.codes.has x = true) :
    microWrite .pllcon (s.setup.params.profile.pllcon.word x) k s =
      .next (k ({ s with clk := { s.clk with pllconHold := x } } : State).disarm) :=
  microWrite_ok h k (CodedLayout.accepts_word h.profile.pllcon hx) (by decide)
    (by simp [storeReg, RegLayout.value_word h.profile.pllcon])

theorem microWrite_pllconEnable (k : State → State) :
    microWrite .pllcon (s.setup.params.profile.pllcon.word pllconEnable) k s =
      .next (k ({ s with clk := { s.clk with pllconHold := pllconEnable } } : State).disarm) :=
  microWrite_pllcon h k h.accepts.pllcon.1

theorem microWrite_pllconConnect (k : State → State) :
    microWrite .pllcon (s.setup.params.profile.pllcon.word pllconConnect) k s =
      .next (k ({ s with clk := { s.clk with pllconHold := pllconConnect } } : State).disarm) :=
  microWrite_pllcon h k h.accepts.pllcon.2

theorem microWrite_pllcfg (k : State → State) (x : BitVec 7) :
    microWrite .pllcfg (s.setup.params.profile.pllcfg.word x) k s =
      .next (k ({ s with clk := { s.clk with pllcfgHold := x } } : State).disarm) :=
  microWrite_ok h k (CodedLayout.accepts_word h.profile.pllcfg (h.accepts.pllcfg x)) (by decide)
    (by simp [storeReg, RegLayout.value_word h.profile.pllcfg])

theorem microWrite_spccr (k : State → State) {x : Byte} (h8 : 8 ≤ x.toNat) (h2 : x.toNat % 2 = 0) :
    microWrite .spccr (s.setup.params.profile.spccr.word x) k s =
      .next (k ({ s with ser := { s.ser with spccr := x } } : State).disarm) :=
  microWrite_ok h k (CodedLayout.accepts_word h.profile.spccr (h.accepts.spccr x h8 h2)) (by decide)
    (by simp [storeReg, RegLayout.value_word h.profile.spccr])

theorem microWrite_spcr (k : State → State) :
    microWrite .spcr (s.setup.params.profile.spcr.word spcrValue) k s =
      .next (k ({ s with ser := { s.ser with spcr := spcrValue } } : State).disarm) :=
  microWrite_ok h k (CodedLayout.accepts_word h.profile.spcr h.accepts.spcr) (by decide)
    (by simp [storeReg, RegLayout.value_word h.profile.spcr])

/-- BUS_CONFIG's write of PINSEL0 after reading `t` from it (41_serial.md R192). -/
theorem microWrite_pinsel0 (k : State → State) (t : Word) :
    microWrite .pinsel0 (pinselWord s.setup.params t) k s =
      .next (k ({ s with ser := { s.ser with
        pinsel0 := pinselValue s.setup.params (s.setup.params.profile.pinsel0.value 32 t) } } : State).disarm) :=
  microWrite_ok h k rfl (by decide)
    (by simp [storeReg, pinselWord, RegLayout.value_word h.profile.pinsel0])

/-- BUS_CONFIG's write of IODIR0 after reading `t` from it (41_serial.md R192). -/
theorem microWrite_iodir0 (k : State → State) (t : Word) :
    microWrite .iodir0 (iodirWord s.setup.params t) k s =
      .next (k ({ s with ser := { s.ser with
        iodir0 := s.setup.params.profile.iodir0.value 32 t ||| csm s.setup.params.csPin } } : State).disarm) :=
  microWrite_ok h k rfl (by decide)
    (by simp [storeReg, iodirWord, RegLayout.value_or_word h.profile.iodir0])

/-! ### FEED and XFER -/

theorem feedFirst_eq :
    feedFirst s = .next ({ s with clk := { s.clk with feedState := .armed } } : State).advance := by
  have hv := RegLayout.value_word h.profile.pllfeed s.setup.params.feedA
  simp [feedFirst, microWrite, memWrite_reg h, regWrite, Reg.accepts, storeReg, feedAbort, Clk.feedWrite, hv]

/-- FEED.f1 commits exactly when the feed is armed (40_clock.md R141, R147). -/
theorem feedSecond_eq (k : State → State) :
    feedSecond k s =
      .next (k (if s.clk.feedState = .armed then { s with clk := s.clk.commit.disarm } else s.disarm)) := by
  have hv := RegLayout.value_word h.profile.pllfeed s.setup.params.feedB
  by_cases hf : s.clk.feedState = .armed <;>
    simp [feedSecond, microWrite, memWrite_reg h, regWrite, Reg.accepts, storeReg, feedAbort, Clk.feedWrite, hv,
      h.feeds.symm, hf, Clk.disarm, State.disarm]

/-- XFER.x0 with no transfer in flight starts one (41_serial.md R182). -/
theorem xferSend_eq (tx : Byte) (hb : s.ser.busy = false) :
    xferSend tx s = .next ({ s with ser := s.ser.clearArmed.queue tx } : State).disarm.advance := by
  have hv := RegLayout.value_word h.profile.spdr tx
  unfold xferSend
  rw [microWrite_ok h (t := { s with ser := s.ser.clearArmed.queue tx }) _ rfl (by decide)]
  simp [storeReg, spdrWrite, hb, hv]

/-- The bit XFER.x1 polls is SPIF (41_serial.md R181). -/
theorem spsr_bit : (regValue .spsr s).getLsbD (s.setup.params.profile.spsr.place 0) = s.ser.spif := by
  rw [regValue, RegLayout.read_place h.profile.spsr _ (by decide)]
  cases h1 : s.ser.spif <;> cases h2 : s.ser.wcol <;> simp [Ser.spsr, h1, h2]

/-- The bit CLK_AWAIT_LOCK polls is PLOCK (40_clock.md R144). -/
theorem pllstat_bit : (regValue .pllstat s).getLsbD (s.setup.params.profile.pllstat.place 9) = s.clk.plock := by
  rw [regValue, RegLayout.read_place h.profile.pllstat _ (by decide)]
  simp only [Clk.pllstat, BitVec.getLsbD_append, BitVec.getLsbD_ofBool]
  simp

theorem xferAwait_eq :
    xferAwait s =
      .next (if s.ser.spif then
          ((({ s with ser := s.ser.arm } : State).disarm.setT (regValue .spsr s)).setPollCount 0).advance
        else (({ s with ser := s.ser.arm } : State).disarm.setT (regValue .spsr s)).pollFailed .timeoutBus) := by
  unfold xferAwait
  rw [poll_eq h, spsr_bit h]
  rfl

theorem xferCapture_eq (dst : Byte → State → State) :
    xferCapture dst s =
      .next (dst s.ser.spdrRx
        (({ s with ser := s.ser.clearArmed } : State).disarm.setT (regValue .spdr s))).advance := by
  simp [xferCapture, microRead_eq h, regValue, readEffect, RegLayout.value_read h.profile.spdr]

/-! ### Chip-select -/

/-- Chip-select driven high with no transfer in flight (41_serial.md R190). -/
theorem csHigh_eq (k : State → State) (hb : s.ser.busy = false) :
    csHigh k s =
      .next (k ((({ s with ser :=
        { s.ser with iolatch0 := s.ser.iolatch0 ||| csm s.setup.params.csPin } } : State).emit
        (.cs true s.ctrl.opPc)).disarm)) := by
  unfold csHigh
  refine microWrite_ok h k rfl (by decide) ?_
  simp [storeReg, latchWrite, hb, State.csLatch, RegLayout.value_word h.profile.ioset0]

/-- Chip-select driven low with no transfer in flight (41_serial.md R190). -/
theorem csLow_eq (k : State → State) (hb : s.ser.busy = false) :
    csLow k s =
      .next (k ((({ s with ser :=
        { s.ser with iolatch0 := s.ser.iolatch0 &&& ~~~csm s.setup.params.csPin } } : State).emit
        (.cs false s.ctrl.opPc)).disarm)) := by
  unfold csLow
  refine microWrite_ok h k rfl (by decide) ?_
  simp [storeReg, latchWrite, hb, State.csLatch, RegLayout.value_word h.profile.ioclr0]

end Legal

/-! ### The command sequence and the decoder registers (20_memory.md R74, 92_eei_decisions.md D33) -/

theorem sdiBytes_eq {par : Params} (h : par.Legal) (b0 b1 b2 b3 b4 b5 b6 b7 : Byte) :
    sdiBytes par [b0, b1, b2, b3, b4, b5, b6, b7] = [b0, b1, b2, b3, b4, b5, b6, b7] := by
  simp [sdiBytes, h.seqLen]

theorem hasRegister_eq {par : Params} (h : par.Legal) (a : Byte) : par.hasRegister a = true := by
  simpa [Params.hasRegister, h.regAddrBits] using a.isLt

theorem registerValue_eq {par : Params} (h : par.Legal) (v : Half) : par.registerValue v = v := by
  rw [Params.registerValue, h.regValueBits, Nat.mod_eq_of_lt v.isLt, BitVec.ofNat_toNat, BitVec.setWidth_eq]

/-! ### Order -/

theorem ordered_ready {ready : Bool} (s : State) (body : Out) (h : s.ctrl.mpc = 0 → ready = true) :
    ordered ready s body = body := by
  unfold ordered
  split
  · next h' => simp [h h'.1] at h'
  · rfl

theorem ordered_refused (s : State) (body : Out) (h : s.ctrl.mpc = 0) :
    ordered false s body = .next (s.raise .order) := by simp [ordered, h]

/-- What an order check can do: the body, or an ORDER fault at mpc 0 (40_clock.md R140, 41_serial.md R180). -/
theorem ordered_cases (ready : Bool) (s : State) (body : Out) :
    ordered ready s body = body ∧ (s.ctrl.mpc = 0 → ready = true) ∨
      ordered ready s body = .next (s.raise .order) ∧ s.ctrl.mpc = 0 ∧ ready = false := by
  by_cases h : s.ctrl.mpc = 0 ∧ ready = false
  · exact .inr ⟨by simp [ordered, h], h⟩
  · refine .inl ⟨by simp [ordered, h], fun h0 => ?_⟩
    simpa [h0] using h

/-- A meaning by the template answers its micro-step, or an ORDER fault (00_scope.md R12). -/
theorem operation_cases (i : Instr) (micro : State → Out) (s : State) :
    operation i micro s = micro s ∧ (s.ctrl.mpc = 0 → precondition i s = true) ∨
      operation i micro s = .next (s.raise .order) ∧ s.ctrl.mpc = 0 ∧ precondition i s = false :=
  ordered_cases _ _ _

/-! ### Frames that capture nothing -/

/-- Chip-select is asserted at mpc 0. -/
theorem sendFrame_assert {assert release : State → Out} {bytes : List Byte} {s : State} (h : s.ctrl.mpc = 0) :
    sendFrame assert release bytes s = assert s := by simp [sendFrame, h]

/-- Byte `k` is queued at mpc 2k + 1. -/
theorem sendFrame_send {assert release : State → Out} {bytes : List Byte} {s : State} {k : Nat} {b : Byte}
    (h : s.ctrl.mpc = 2 * k + 1) (hb : bytes[k]? = some b) :
    sendFrame assert release bytes s = xferSend b s := by
  simp [sendFrame, h, hb]

/-- Byte `k` is awaited at mpc 2k + 2. -/
theorem sendFrame_await {assert release : State → Out} {bytes : List Byte} {s : State} {k : Nat} {b : Byte}
    (h : s.ctrl.mpc = 2 * k + 1 + 1) (hb : bytes[k]? = some b) :
    sendFrame assert release bytes s = xferAwait s := by
  have : (2 * k + 1) / 2 = k := by omega
  simp [sendFrame, h, this, hb]

/-- Chip-select is released at the micro-step after the last byte's await. -/
theorem sendFrame_release {assert release : State → Out} {bytes : List Byte} {s : State}
    (h : s.ctrl.mpc = 2 * bytes.length + 1) : sendFrame assert release bytes s = release s := by
  simp [sendFrame, h]

/-- A frame has no micro-step beyond its release. -/
theorem sendFrame_past {assert release : State → Out} {bytes : List Byte} {s : State}
    (h : 2 * bytes.length + 2 ≤ s.ctrl.mpc) : sendFrame assert release bytes s = .fault .noMicroStep := by
  obtain ⟨j, hj⟩ : ∃ j, s.ctrl.mpc = j + 1 := ⟨s.ctrl.mpc - 1, by omega⟩
  have hn : bytes[j / 2]? = none := List.getElem?_eq_none (by omega)
  have hne : j ≠ 2 * bytes.length := by omega
  simp [sendFrame, hj, hn, hne]

end Sys2Proof.Machine
end

