-- ==== Sys2Proof/Laws/PerInstr.lean ====
section
/-! SUPPORT. Statements made per instruction. Family Length: how much room an encoding takes (30_encoding.md R104 for
host words, R110 to R113 for frames). Family Template: what 00_scope.md R12 asks of each instruction. -/

namespace Sys2Proof.Laws.Length

open Sys2Proof

/-- Host words: as many as R104 gives the first word's OPC. Wire bytes: eight with chip-select high, four with it
low. -/
def Statement (i : Instr) : Prop :=
  ∀ par, match encode par i with
  | .host ws => ∃ w rest, ws = w :: rest ∧ ws.length = opLength (fieldOpc w)
  | .wire cs bytes => bytes.length = if cs then 8 else 4

/-- An operation of one word. -/
theorem one_word {opc a : Byte} {d : Half} (h : opc ≠ opcSendCommandSequence) :
    ∃ w rest, [hostWord opc a d] = w :: rest ∧ [hostWord opc a d].length = opLength (fieldOpc w) :=
  ⟨_, _, rfl, by rw [fieldOpc_hostWord, opLength, if_neg h]; rfl⟩

theorem clkConfigure (m : BitVec 5) (p : BitVec 2) : Statement (.clkConfigure m p) := fun _ => one_word (by decide)

theorem clkEnable : Statement .clkEnable := fun _ => one_word (by decide)

theorem clkAwaitLock : Statement .clkAwaitLock := fun _ => one_word (by decide)

theorem clkSwitch : Statement .clkSwitch := fun _ => one_word (by decide)

theorem clkTuneMem (n : BitVec 3) : Statement (.clkTuneMem n) := fun _ => one_word (by decide)

theorem busConfig (d : Byte) : Statement (.busConfig d) := fun _ => one_word (by decide)

theorem readRegister (a : Byte) : Statement (.readRegister a) := fun _ => one_word (by decide)

theorem writeRegister (a : Byte) (v : Half) : Statement (.writeRegister a v) := fun _ => one_word (by decide)

theorem sendCommandSequence (b0 b1 b2 b3 b4 b5 b6 b7 : Byte) :
    Statement (.sendCommandSequence b0 b1 b2 b3 b4 b5 b6 b7) :=
  fun _ => ⟨_, _, rfl, by rw [fieldOpc_hostWord]; rfl⟩

theorem sciWriteFrame (a : Byte) (v : Half) : Statement (.sciWriteFrame a v) := fun _ => rfl

theorem sciReadFrame (a : Byte) : Statement (.sciReadFrame a) := fun _ => rfl

theorem sdiCommandFrame (b0 b1 b2 b3 b4 b5 b6 b7 : Byte) :
    Statement (.sdiCommandFrame b0 b1 b2 b3 b4 b5 b6 b7) := fun _ => rfl

theorem sineTestCommand (p1 p2 : Byte) : Statement (.sineTestCommand p1 p2) := fun _ => rfl

end Sys2Proof.Laws.Length

namespace Sys2Proof.Laws.Template

open Sys2Proof Sys2Proof.Machine

/-- A host operation has host words for its encoding; every other row is a wire frame, whose carrier is a host operation
with the same precondition, micro-steps, flags and faults (00_scope.md R12). -/
def Statement (i : Instr) : Prop :=
  (isOperation i = true → carrier i = i ∧ ∀ par, ∃ w rest, encode par i = .host (w :: rest)) ∧
    (isOperation i = false → encodeHost i = [] ∧ ∀ par, ∃ cs bytes, encode par i = .wire cs bytes) ∧
    isOperation (carrier i) = true ∧ precondition (carrier i) = precondition i ∧
    microSteps (carrier i) = microSteps i ∧ flagsWritten (carrier i) = flagsWritten i ∧
    pollCode (carrier i) = pollCode i

theorem clkConfigure (m : BitVec 5) (p : BitVec 2) : Statement (.clkConfigure m p) :=
  ⟨fun _ => ⟨rfl, fun _ => ⟨_, _, rfl⟩⟩, nofun, rfl, rfl, rfl, rfl, rfl⟩

theorem clkEnable : Statement .clkEnable := ⟨fun _ => ⟨rfl, fun _ => ⟨_, _, rfl⟩⟩, nofun, rfl, rfl, rfl, rfl, rfl⟩

theorem clkAwaitLock : Statement .clkAwaitLock := ⟨fun _ => ⟨rfl, fun _ => ⟨_, _, rfl⟩⟩, nofun, rfl, rfl, rfl, rfl, rfl⟩

theorem clkSwitch : Statement .clkSwitch := ⟨fun _ => ⟨rfl, fun _ => ⟨_, _, rfl⟩⟩, nofun, rfl, rfl, rfl, rfl, rfl⟩

theorem clkTuneMem (n : BitVec 3) : Statement (.clkTuneMem n) :=
  ⟨fun _ => ⟨rfl, fun _ => ⟨_, _, rfl⟩⟩, nofun, rfl, rfl, rfl, rfl, rfl⟩

theorem busConfig (d : Byte) : Statement (.busConfig d) :=
  ⟨fun _ => ⟨rfl, fun _ => ⟨_, _, rfl⟩⟩, nofun, rfl, rfl, rfl, rfl, rfl⟩

theorem readRegister (a : Byte) : Statement (.readRegister a) :=
  ⟨fun _ => ⟨rfl, fun _ => ⟨_, _, rfl⟩⟩, nofun, rfl, rfl, rfl, rfl, rfl⟩

theorem writeRegister (a : Byte) (v : Half) : Statement (.writeRegister a v) :=
  ⟨fun _ => ⟨rfl, fun _ => ⟨_, _, rfl⟩⟩, nofun, rfl, rfl, rfl, rfl, rfl⟩

theorem sendCommandSequence (b0 b1 b2 b3 b4 b5 b6 b7 : Byte) :
    Statement (.sendCommandSequence b0 b1 b2 b3 b4 b5 b6 b7) :=
  ⟨fun _ => ⟨rfl, fun _ => ⟨_, _, rfl⟩⟩, nofun, rfl, rfl, rfl, rfl, rfl⟩

theorem sciWriteFrame (a : Byte) (v : Half) : Statement (.sciWriteFrame a v) :=
  ⟨nofun, fun _ => ⟨rfl, fun _ => ⟨_, _, rfl⟩⟩, rfl, rfl, rfl, rfl, rfl⟩

theorem sciReadFrame (a : Byte) : Statement (.sciReadFrame a) :=
  ⟨nofun, fun _ => ⟨rfl, fun _ => ⟨_, _, rfl⟩⟩, rfl, rfl, rfl, rfl, rfl⟩

theorem sdiCommandFrame (b0 b1 b2 b3 b4 b5 b6 b7 : Byte) :
    Statement (.sdiCommandFrame b0 b1 b2 b3 b4 b5 b6 b7) :=
  ⟨nofun, fun _ => ⟨rfl, fun _ => ⟨_, _, rfl⟩⟩, rfl, rfl, rfl, rfl, rfl⟩

theorem sineTestCommand (p1 p2 : Byte) : Statement (.sineTestCommand p1 p2) :=
  ⟨nofun, fun _ => ⟨rfl, fun _ => ⟨_, _, rfl⟩⟩, rfl, rfl, rfl, rfl, rfl⟩

end Sys2Proof.Laws.Template
end

