-- ==== Sys2Proof/Tests/Slice0.lean ====
section
/-! SUPPORT. Tests of the model: ill-formed terms, decoded words and one-step results taken from 30_encoding.md and
95_test_vectors.md, and a witness for the hypotheses of every obligation that has some. -/

namespace Sys2Proof.Tests

open Sys2Proof Sys2Proof.Machine

/-! ### Ill-formed terms (30_encoding.md R108, log 15) -/

theorem test_wf_tune_zero : (Instr.clkTuneMem 0#3).wellFormed = false := by decide

theorem test_wf_bus_odd : (Instr.busConfig 9#8).wellFormed = false := by decide

theorem test_wf_bus_small : (Instr.busConfig 6#8).wellFormed = false := by decide

theorem test_wf_tone_spelled_by_its_row :
    (Instr.sdiCommandFrame 0x53#8 0xEF#8 0x6E#8 0xAA#8 0#8 0#8 0#8 0#8).wellFormed = false := by decide

theorem test_wf_bounds :
    (Instr.clkTuneMem 1#3).wellFormed = true ∧ (Instr.clkTuneMem 7#3).wellFormed = true ∧
      (Instr.busConfig 8#8).wellFormed = true ∧ (Instr.busConfig 254#8).wellFormed = true ∧
      (Instr.sdiCommandFrame 0x53#8 0xEF#8 0#8 0#8 0#8 0#8 0#8 1#8).wellFormed = true := by decide

/-! ### Words written out from the encodings (30_encoding.md R105, R110 to R113; 95_test_vectors.md section 2) -/

/-- V-E3: D[6:5] = 3 and D[4:0] = 31. -/
theorem test_decode_clkConfigure : decode [0x1100007F#32] = .ok (.clkConfigure 31#5 3#2) [] := by decide

theorem test_decode_clkEnable : decode [0x12000000#32, 5#32] = .ok .clkEnable [5#32] := by decide

theorem test_decode_clkAwaitLock : decode [0x13000000#32] = .ok .clkAwaitLock [] := by decide

theorem test_decode_clkSwitch : decode [0x14000000#32] = .ok .clkSwitch [] := by decide

/-- V-E10. -/
theorem test_decode_clkTuneMem : decode [0x15070000#32] = .ok (.clkTuneMem 7#3) [] := by decide

/-- V-E15. -/
theorem test_decode_busConfig : decode [0x200000FE#32] = .ok (.busConfig 254#8) [] := by decide

/-- V-E20. -/
theorem test_decode_readRegister : decode [0x21FF0000#32] = .ok (.readRegister 0xFF#8) [] := by decide

/-- V-S14's word. -/
theorem test_decode_writeRegister : decode [0x22121234#32] = .ok (.writeRegister 0x12#8 0x1234#16) [] := by decide

/-- V-S17's words. -/
theorem test_decode_sendCommandSequence :
    decode [0x23000000#32, 0x01020304#32, 0x05060708#32] =
      .ok (.sendCommandSequence 1#8 2#8 3#8 4#8 5#8 6#8 7#8 8#8) [] := by decide

theorem test_decode_sciWriteFrame :
    decodeWire Params.hardware false [0x02#8, 0x12#8, 0x12#8, 0x34#8] =
      .ok (.sciWriteFrame 0x12#8 0x1234#16) [] := by decide

theorem test_decode_sciReadFrame :
    decodeWire Params.hardware false [0x03#8, 0x01#8, 0xFF#8, 0xFF#8] = .ok (.sciReadFrame 0x01#8) [] := by decide

theorem test_decode_sdiCommandFrame :
    decodeWire Params.hardware true [1#8, 2#8, 3#8, 4#8, 5#8, 6#8, 7#8, 8#8] =
      .ok (.sdiCommandFrame 1#8 2#8 3#8 4#8 5#8 6#8 7#8 8#8) [] := by decide

theorem test_decode_sineTestCommand :
    decodeWire Params.hardware true [0x53#8, 0xEF#8, 0x6E#8, 0xAA#8, 0#8, 0#8, 0#8, 0#8] =
      .ok (.sineTestCommand 0x6E#8 0xAA#8) [] := by decide

/-- V-E5, V-E7, V-E8, V-E12, V-E13, V-E19, V-E21, V-E26. -/
theorem test_decode_reserved_bits :
    decode [0x11010023#32] = .reject .reservedBit ∧ decode [0x12000001#32] = .reject .reservedBit ∧
      decode [0x14800000#32] = .reject .reservedBit ∧ decode [0x15080000#32] = .reject .reservedBit ∧
      decode [0x15030001#32] = .reject .reservedBit ∧ decode [0x20000140#32] = .reject .reservedBit ∧
      decode [0x21000001#32] = .reject .reservedBit ∧
      decode [0x23000001#32, 0#32, 0#32] = .reject .reservedBit := by decide

/-- V-E16 to V-E18, V-E27, V-E28. -/
theorem test_decode_rejected :
    decode [0x20000006#32] = .reject .illegalOperand ∧ decode [0x20000000#32] = .reject .illegalOperand ∧
      decode [0x23000000#32] = .reject .missingExtension ∧ decode [0#32] = .reject .unassignedOpcode ∧
      decode [0x10000000#32] = .reject .unassignedOpcode ∧ decode [0x24000000#32] = .reject .unassignedOpcode ∧
      decode [0xFF000000#32] = .reject .unassignedOpcode := by decide

/-- The table's numbers of two rows: a 64-bit number and a three-word host operation given by its first word. -/
theorem test_table_words :
    decodeTableWord 64 0x53EF6EAA00000000 = some (.sineTestCommand 0x6E#8 0xAA#8) ∧
      decodeTableWord 32 0x23000000 = some (.sendCommandSequence 0#8 0#8 0#8 0#8 0#8 0#8 0#8 0#8) ∧
      decodeTableWord 32 0x02000C20 = some (.sciWriteFrame 0x00#8 0x0C20#16) := by decide

/-- 95_test_vectors.md section 2, the pseudo-instruction expansions; an operand out of R122's range has no code. -/
theorem test_assembler :
    (assemble .clkBringup [3, 1, 3]).map programWords =
        some [0x11000023#32, 0x12000000#32, 0x13000000#32, 0x14000000#32, 0x15030000#32] ∧
      (assemble .setMode [0x0C20]).map programWords = some [0x22000C20#32] ∧
      (assemble .sineTest [0x6E, 170]).map programWords = some [0x23000000#32, 0x53EF6EAA#32, 0#32] ∧
      assemble .clkTuneMem [0] = none ∧ assemble .clkConfigure [32, 0] = none := by decide

/-! ### Small states -/

/-- The clock unit right after reset. -/
def clockOff : Clk := Clk.reset ResetValues.lpc2000

/-- The serial unit right after reset. -/
def serialOff : Ser := Ser.reset ResetValues.lpc2000

/-- A clock unit in which the bring-up has reached `q` with the configuration 0x23. -/
def clockIn (q : SeqState) : Clk :=
  { clockOff with
    pllconHold := if q.rank < 2 then 0#2 else if q.rank < 4 then 1#2 else 3#2
    pllconAct := if q.rank < 2 then 0#2 else if q.rank < 4 then 1#2 else 3#2
    pllcfgHold := if q.rank = 0 then 0#7 else 0x23#7
    pllcfgAct := if q.rank = 0 then 0#7 else 0x23#7
    plock := decide (3 ≤ q.rank)
    seqState := q }

/-- A serial unit after BUS_CONFIG 64, with chip-select at `level`. -/
def linkUp (level : Bool) : Ser :=
  { serialOff with
    pinsel0 := 0x1500#32
    spcr := 0x20#8
    spccr := 64#8
    iodir0 := 0x80#32
    iolatch0 := if level then 0x80#32 else 0#32
    linkState := .l1Ready }

/-- A machine with the one operation `i` loaded, CTRL at its micro-step `k`, and CTRL given the next step. -/
def machineAt (i : Instr) (k : Nat) (c : Clk) (r : Ser) : State :=
  let s := State.boot { Setup.hardware with program := hostWords i } .echo
  { s with ctrl := { s.ctrl with mpc := k }, clk := c, ser := r, moves := { s.moves with script := [.ctrl] } }

/-- What holds of the next state, if there is one. -/
def ends (o : Out) (p : State → Bool) : Bool :=
  match o with
  | .next t => p t
  | .fault _ => false
  | .refused _ => false

/-! ### One step at a time (95_test_vectors.md sections 3 to 5) -/

/-- CLK_CONFIGURE 3, 1: the first write leaves 0x23 in the holding copy only (section 3, "Holding versus active"). -/
theorem test_clkConfigure_holds :
    ends (exec (.clkConfigure 3#5 1#2) (machineAt (.clkConfigure 3#5 1#2) 0 clockOff serialOff))
      (fun t => regValue .pllcfg t == 0x23#32 && regValue .pllstat t == 0#32 && t.ctrl.mpc == 1) = true := by decide

/-- Its commit (V-C1): PLLSTAT reads 0x23, op_pc advances, and the one-operation program ends. -/
theorem test_clkConfigure_commits :
    ends (exec (.clkConfigure 3#5 1#2) (machineAt (.clkConfigure 3#5 1#2) 2
        { clockOff with pllcfgHold := 0x23#7, feedState := .armed } serialOff))
      (fun t => regValue .pllstat t == 0x23#32 && t.clk.seqState == .s1Configured && t.ctrl.opPc == 1 &&
        t.ctrl.status == .ended) = true := by decide

/-- V-C12: from reset, fault (4, 0) and nothing written. -/
theorem test_clkEnable_order :
    ends (exec .clkEnable (machineAt .clkEnable 0 clockOff serialOff))
      (fun t => t.env.fault == some { code := .order, opPc := 0 } && t.clk == clockOff && t.ctrl.mpc == 0) = true := by
  decide

/-- PLLSTAT after CLK_ENABLE, before lock: 0x123. -/
theorem test_clkEnable_commits :
    ends (exec .clkEnable (machineAt .clkEnable 2
        { clockIn .s1Configured with pllconHold := 1#2, feedState := .armed } serialOff))
      (fun t => regValue .pllstat t == 0x123#32 && t.clk.seqState == .s2Enabled) = true := by decide

/-- V-C18's last read: 0x523, success, poll_count back to 0. -/
theorem test_clkAwaitLock_succeeds :
    let s := machineAt .clkAwaitLock 0 { clockIn .s2Enabled with plock := true } serialOff
    ends (exec .clkAwaitLock { s with ctrl := { s.ctrl with pollCount := 2 } })
      (fun t => t.ctrl.t == 0x523#32 && t.ctrl.pollCount == 0 && t.clk.seqState == .s3Locked) = true := by decide

/-- V-C20: POLL_BUDGET = 1 and no lock at the first read: fault (2, 0), poll_count 1, t = 0x123. -/
theorem test_clkAwaitLock_times_out :
    let s := machineAt .clkAwaitLock 0 (clockIn .s2Enabled) serialOff
    ends (exec .clkAwaitLock
        { s with setup := { s.setup with params := { s.setup.params with pollBudget := some 1 } } })
      (fun t => t.env.fault == some { code := .timeoutLock, opPc := 0 } && t.ctrl.pollCount == 1 &&
        t.ctrl.t == 0x123#32 && t.clk.seqState == .s2Enabled) = true := by decide

/-- V-C10a: the third commit keeps the lock and connects the PLL; PLLSTAT reads 0x723; cclk is 58,982,400 Hz. -/
theorem test_clkSwitch_connects :
    ends (exec .clkSwitch (machineAt .clkSwitch 2
        { clockIn .s3Locked with pllconHold := 3#2, feedState := .armed } serialOff))
      (fun t => regValue .pllstat t == 0x723#32 && connected t.clk &&
        cclk Params.hardware t.clk == 58982400) = true := by decide

/-- V-C22: CLK_TUNE_MEM 1 writes MAMTIM 1. -/
theorem test_clkTuneMem_first :
    ends (exec (.clkTuneMem 1#3) (machineAt (.clkTuneMem 1#3) 0 (clockIn .s4Switched) serialOff))
      (fun t => regValue .mamtim t == 1#32 && t.ctrl.mpc == 1) = true := by decide

/-- V-C22: its last write is VPBDIV 1 and leaves S5_DONE. -/
theorem test_clkTuneMem_last :
    ends (exec (.clkTuneMem 1#3) (machineAt (.clkTuneMem 1#3) 2 (clockIn .s4Switched) serialOff))
      (fun t => regValue .vpbdiv t == 1#32 && t.clk.seqState == .s5Done &&
        pclk Params.hardware t.clk == some 58982400) = true := by
  decide

/-- Section 4, BUS_CONFIG: with a prior PINSEL0 of 0xFFFFFFFF the formula gives 0xFFFF15FF. -/
theorem test_busConfig_pinsel :
    let s := machineAt (.busConfig 64#8) 1 (clockIn .s5Done) serialOff
    ends (exec (.busConfig 64#8) { s with ctrl := { s.ctrl with t := 0xFFFFFFFF#32 } })
      (fun t => regValue .pinsel0 t == 0xFFFF15FF#32) = true := by decide

/-- V-S23: fault (4, 0) while the clock is not done. -/
theorem test_busConfig_order :
    ends (exec (.busConfig 64#8) (machineAt (.busConfig 64#8) 0 clockOff serialOff))
      (fun t => t.env.fault == some { code := .order, opPc := 0 } && t.env.trace == []) = true := by decide

/-- V-S16: bytes 0xFF then 0x00 give RESULT 0xFF00, and CS(1) is the last event. -/
theorem test_readRegister_result :
    let s := machineAt (.readRegister 0#8) 11 (clockIn .s5Done) (linkUp false)
    ends (exec (.readRegister 0#8) { s with ctrl := { s.ctrl with hi := 0xFF#8, lo := 0#8 } })
      (fun t => t.ctrl.result == 0xFF00#16 && t.env.results == [0xFF00#16] && t.env.trace == [.cs true 0]) = true := by
  decide

/-- V-S15: the third received byte 0x33 is captured as hi. -/
theorem test_readRegister_captures_high_first :
    ends (exec (.readRegister 1#8) (machineAt (.readRegister 1#8) 7 (clockIn .s5Done)
        { linkUp false with spdrRx := 0x33#8, spif := true, spifArmed := true }))
      (fun t => t.ctrl.hi == 0x33#8 && !t.ser.spif && !t.ser.spifArmed) = true := by decide

/-- V-S14: the value's high byte 0x12 is the third byte queued. -/
theorem test_writeRegister_high_first :
    ends (exec (.writeRegister 0x12#8 0x1234#16)
        (machineAt (.writeRegister 0x12#8 0x1234#16) 5 (clockIn .s5Done) (linkUp false)))
      (fun t => t.ser.spdrTx == 0x12#8 && t.ser.busy) = true := by decide

/-- V-S14: the low byte 0x34 is the fourth. -/
theorem test_writeRegister_low_second :
    ends (exec (.writeRegister 0x12#8 0x1234#16)
        (machineAt (.writeRegister 0x12#8 0x1234#16) 7 (clockIn .s5Done) (linkUp false)))
      (fun t => t.ser.spdrTx == 0x34#8 && t.ser.busy) = true := by decide

/-- V-S17: the last command byte is 0x08. -/
theorem test_sendCommandSequence_last_byte :
    ends (exec (.sendCommandSequence 1#8 2#8 3#8 4#8 5#8 6#8 7#8 8#8)
        (machineAt (.sendCommandSequence 1#8 2#8 3#8 4#8 5#8 6#8 7#8 8#8) 15 (clockIn .s5Done) (linkUp true)))
      (fun t => t.ser.spdrTx == 8#8) = true := by decide

/-- V-S17: after it chip-select falls and op_pc advances by three words. -/
theorem test_sendCommandSequence_end :
    ends (exec (.sendCommandSequence 1#8 2#8 3#8 4#8 5#8 6#8 7#8 8#8)
        (machineAt (.sendCommandSequence 1#8 2#8 3#8 4#8 5#8 6#8 7#8 8#8) 17 (clockIn .s5Done) (linkUp true)))
      (fun t => t.env.trace == [.cs false 0] && t.ctrl.opPc == 3 && t.ctrl.status == .ended) = true := by decide

/-- R110: the frame begins with the write opcode 0x02. -/
theorem test_sciWriteFrame_opcode :
    ends (exec (.sciWriteFrame 0#8 0x0C20#16)
        (machineAt (.sciWriteFrame 0#8 0x0C20#16) 1 (clockIn .s5Done) (linkUp false)))
      (fun t => t.ser.spdrTx == 0x02#8) = true := by decide

/-- R111: the third byte of a read frame is the dummy byte 0xFF. -/
theorem test_sciReadFrame_dummy :
    ends (exec (.sciReadFrame 0x0B#8) (machineAt (.sciReadFrame 0x0B#8) 5 (clockIn .s5Done) (linkUp false)))
      (fun t => t.ser.spdrTx == 0xFF#8) = true := by decide

/-- R112: an SDI frame is sent with chip-select high. -/
theorem test_sdiCommandFrame_select :
    ends (exec (.sdiCommandFrame 1#8 2#8 3#8 4#8 5#8 6#8 7#8 8#8)
        (machineAt (.sdiCommandFrame 1#8 2#8 3#8 4#8 5#8 6#8 7#8 8#8) 0 (clockIn .s5Done) (linkUp false)))
      (fun t => t.env.trace == [.cs true 0]) = true := by decide

/-- R113: the second byte of the tone command is 0xEF. -/
theorem test_sineTestCommand_second_byte :
    ends (exec (.sineTestCommand 0x6E#8 0xAA#8)
        (machineAt (.sineTestCommand 0x6E#8 0xAA#8) 3 (clockIn .s5Done) (linkUp true)))
      (fun t => t.ser.spdrTx == 0xEF#8) = true := by decide

/-! ### Register-level vectors and the agents -/

/-- V-C5: a read between the two feed bytes aborts, so the second byte commits nothing. -/
theorem test_feed_aborted_by_read :
    (match memRead Profile.lpc2000.pllstat.addr 4
        (machineAt .clkEnable 0 { clockOff with pllcfgHold := 0x23#7, feedState := .armed } serialOff) with
      | .ok _ t =>
        (match memWrite Profile.lpc2000.pllfeed.addr 4 0x55#32 t with
          | .ok _ u => decide (u.clk.feedState = .idle ∧ u.clk.pllcfgAct = 0#7)
          | .bad _ _ => false)
      | .bad _ _ => false) = true := by decide

/-- V-S5: a write to SPDR in flight sets WCOL, raises code 5 and leaves SPDR_tx. -/
theorem test_write_collision :
    ends (microWrite .spdr 0x55#32 id
        (machineAt (.writeRegister 0#8 0#16) 1 (clockIn .s5Done) { linkUp false with busy := true, spdrTx := 2#8 }))
      (fun t => t.ser.wcol && t.ser.spdrTx == 2#8 &&
        t.env.fault == some { code := .writeCollision, opPc := 0 }) = true := by decide

/-- V-S6: chip-select may not move in flight. -/
theorem test_select_in_flight :
    ends (microWrite .ioset0 0x80#32 id
        (machineAt (.writeRegister 0#8 0#16) 1 (clockIn .s5Done) { linkUp false with busy := true }))
      (fun t => t.ser.iolatch0 == 0#32 && t.env.trace == [] &&
        t.env.fault == some { code := .csInFlight, opPc := 0 }) = true := by decide

/-- V-S7: out of master mode a transfer never completes. -/
theorem test_no_shift_without_master :
    shifterEnabled (machineAt (.writeRegister 0#8 0#16) 1 (clockIn .s5Done)
      { serialOff with busy := true }) = false := by
  decide

/-- R189, V-S19 with unequal bytes: the fourth exchange of a write gives register 0x0B the value 0x2021. -/
theorem test_echo_takes_value :
    echoAnswer Params.hardware [] [0x02#8, 0x0B#8, 0x20#8] 0x21#8 0 = (Config.freeByte 0, [(0x0B, 0x2021#16)]) := by
  simp [echoAnswer, echoTake, Memory.write, Memory.insert, Params.hardware, Params.hasRegister, Params.registerValue]

/-- R189: the third exchange of a read answers the high byte, the fourth the low byte. -/
theorem test_echo_answers :
    (echoAnswer Params.hardware [(0x0B, 0x2021#16)] [0x03#8, 0x0B#8] 0xFF#8 0).1 = 0x20#8 ∧
      (echoAnswer Params.hardware [(0x0B, 0x2021#16)] [0x03#8, 0x0B#8, 0xFF#8] 0xFF#8 0).1 = 0x21#8 := by decide

/-- Section 2, priority: 0x15000000 at op_pc 0 from reset raises (3, 0), not ORDER. -/
theorem test_illegal_before_order :
    ends (step (State.boot { Setup.hardware with program := [0x15000000#32] } .any))
      (fun t => t.env.fault == some { code := .illegalOp, opPc := 0 } && t.ctrl.status == .faulted) = true := by decide

/-- P3: fault (4, 0) and no event. -/
theorem test_program_p3 :
    ends (step (State.boot { Setup.hardware with program := [0x20000040#32, 0x22000C20#32] } .any))
      (fun t => t.env.fault == some { code := .order, opPc := 0 } && t.env.trace == [] &&
        t.ser == serialOff) = true := by
  decide

/-- Section 5, reset: with the empty program the run is over. -/
theorem test_reset_has_ended : step State.reset = .fault .runEnded := by rfl

/-- One operation loaded after reset runs at the very next step. -/
theorem test_load_runs :
    ends (step (State.reset.withFetchWord 32 0x11000023))
      (fun t => t.ctrl.mpc == 1 && t.clk.pllcfgHold == 0x23#7) = true := by decide

/-- A loaded wire frame runs as its operation, which faults with ORDER from reset. -/
theorem test_load_frame :
    ends (step (State.reset.withFetchWord 64 0x53EF6EAA00000000))
      (fun t => t.env.fault == some { code := .order, opPc := 0 } &&
        t.setup.program == [0x23000000#32, 0x53EF6EAA#32, 0#32]) = true := by decide

/-- The PLL's lock step (R160). -/
theorem test_pll_locks :
    let s := machineAt .clkAwaitLock 0 (clockIn .s2Enabled) serialOff
    ends (step { s with moves := { s.moves with script := [.pll] } })
      (fun t => regValue .pllstat t == 0x523#32 && t.ctrl == s.ctrl) = true := by decide

/-- The operating band around PSEL = 1 (V-C10, V-C11). -/
theorem test_band :
    fcco Params.hardware 0x23#7 = 235929600 ∧
      [0x23#7, 0x22#7, 0x24#7].all (inBand Params.hardware) = true ∧
      [0x25#7, 0x21#7, 0x03#7, 0x7F#7].any (inBand Params.hardware) = false := by decide

/-- R162's column FCCO: 0 until CLK_ENABLE's commit, then 235,929,600 Hz. -/
theorem test_oscillator :
    oscillator Params.hardware clockOff = 0 ∧ oscillator Params.hardware (clockIn .s1Configured) = 0 ∧
      oscillator Params.hardware (clockIn .s2Enabled) = 235929600 ∧
      oscillator Params.hardware (clockIn .s5Done) = 235929600 := by decide

/-- Another profile and pin (00_scope.md R7): PLLCFG at 0x100 with its value in bits 22:16 and reserved bits reading
1s, PINSEL0 with its halves exchanged, the MAMTIM code 1 reserved too, SPIF and PLOCK set at reset, chip-select on pin
12. -/
def otherParams : Params :=
  { Params.hardware with
    csPin := 12
    profile := { Profile.lpc2000 with
      pllcfg :=
        { toRegLayout := { addr := 0x100, bits := [16, 17, 18, 19, 20, 21, 22], reserved := 0xFF000001#32 }
          codes := .all }
      mamtim := { toRegLayout := .low 0xE01FC004 3, codes := .allBut [0, 1] }
      pinsel0 := { RegLayout.low 0xE002C000 32 with bits := (List.range 32).map fun k => (k + 16) % 32 }
      reset := { ResetValues.lpc2000 with plock := true, spif := true } } }

/-- The layout moves the word and its reserved bits, not the value CLK_CONFIGURE leaves. -/
theorem test_other_profile :
    let s := machineAt (.clkConfigure 3#5 1#2) 0 clockOff serialOff
    ends (exec (.clkConfigure 3#5 1#2) { s with setup := { s.setup with params := otherParams } })
      (fun t => t.clk.pllcfgHold == 0x23#7 && regValue .pllcfg t == 0xFF230001#32) = true := by decide

/-- Chip-select on pin 12 moves the mask and the pin's function field, not the serial pins' functions; PINSEL0's layout
moves the word. -/
theorem test_other_pin :
    csm otherParams.csPin = 0x1000#32 ∧ pinselValue otherParams 0xFFFFFFFF#32 = 0xFCFFD5FF#32 ∧
      pinselWord otherParams 0xFFFFFFFF#32 = 0xD5FFFCFF#32 := by decide

/-- The profile says which codes are reserved (93_implementation_defined.md GK11), and what reset leaves. -/
theorem test_other_codes_and_reset :
    Reg.mamtim.accepts Profile.lpc2000 1#32 = true ∧ Reg.mamtim.accepts otherParams.profile 1#32 = false ∧
      (Clk.reset otherParams.profile.reset).plock = true ∧ (Ser.reset otherParams.profile.reset).spif = true := by
  decide

/-- CS_PIN 5 is MISO0's pin too: its function stays 01 (log 29), the other serial pins' as ever. -/
theorem test_serial_pin_as_select :
    pinselValue { Params.hardware with csPin := 5 } 0xFFFFFFFF#32 = 0xFFFFD5FF#32 := by decide

/-- Reset after a fault: END and FAULTED are left, the program is kept (R260), and a written register of the echo double
is unwritten again (R189). -/
theorem test_restart :
    let s := machineAt .clkEnable 0 (clockIn .s2Enabled) (linkUp true)
    let t := (State.raise .order { s with env := { s.env with dev := .echo [(0x0B, 0x2021#16)] } }).restart
    t.ctrl.status = .run ∧ t.env.fault = none ∧ t.setup = s.setup ∧ t.env.dev = .echo [] := by decide

/-! ### Witnesses: encodings and steps -/

theorem witness_DecodeOfEncode :
    (Instr.clkTuneMem 7#3).wellFormed = true ∧ (Instr.busConfig 254#8).wellFormed = true ∧
      encode Params.hardware (.busConfig 254#8) = .host [0x200000FE#32] ∧
      Params.hardware.sciReadOp ≠ Params.hardware.sciWriteOp ∧
      (Instr.sdiCommandFrame 1#8 2#8 3#8 4#8 5#8 6#8 7#8 8#8).wellFormed = true := by decide

theorem witness_DecodedWordsAreTheEncoding :
    decode [0x22FFFFFF#32, 7#32] = .ok (.writeRegister 0xFF#8 0xFFFF#16) [7#32] ∧
      decode [0x15010000#32] = .ok (.clkTuneMem 1#3) [] := by decide

theorem witness_DecodedBytesAreTheFrame :
    decodeWire Params.hardware false [3#8, 0#8, 0xFF#8, 0xFF#8] = .ok (.sciReadFrame 0#8) [] ∧
      decodeWire Params.hardware true [0#8, 0#8, 0#8, 0#8, 0#8, 0#8, 0#8, 0#8] =
        .ok (.sdiCommandFrame 0#8 0#8 0#8 0#8 0#8 0#8 0#8 0#8) [] := by decide

theorem witness_LengthFollowsFromOpcode :
    decode (0x23000000#32 :: [0#32, 0#32, 9#32]) =
        .ok (.sendCommandSequence 0#8 0#8 0#8 0#8 0#8 0#8 0#8 0#8) [9#32] ∧
      decode (0x12000000#32 :: [9#32]) = .ok .clkEnable [9#32] := by decide

theorem witness_PseudoInstructionsAndBootProgram : (1#3) ≠ 0 ∧ (7#3) ≠ 0 := by decide

/-- A machine whose program is the words `ws`, right after reset. -/
def booted (ws : List Word) : State := State.boot { Setup.hardware with program := ws } .any

theorem witness_IllegalWordsFault :
    (booted [0x15000000#32]).ctrl.status = .run ∧ hardwareEnabled (booted [0x15000000#32]) = false ∧
      decode (fetch (booted [0x15000000#32])) = .reject .illegalOperand := by decide

/-- A write's poll with its transfer in flight, the next step CTRL's. -/
def polling : State :=
  machineAt (.writeRegister 0x12#8 0x1234#16) 2 (clockIn .s5Done) { linkUp false with busy := true, spdrTx := 2#8 }

/-- The same with the next step SHIFTER's. -/
def shifting : State := { polling with moves := { polling.moves with script := [.shifter] } }

/-- CLK_AWAIT_LOCK before lock, the next step the PLL's. -/
def locking : State :=
  let s := machineAt .clkAwaitLock 0 (clockIn .s2Enabled) serialOff
  { s with moves := { s.moves with script := [.pll] } }

theorem witness_StepRunsDecoded :
    (booted [0x12000000#32]).ctrl.status = .run ∧ hardwareEnabled (booted [0x12000000#32]) = false ∧
      decode ((booted [0x12000000#32]).setup.program.drop 0) = .ok .clkEnable [] ∧
      polling.ctrl.status = .run ∧ hardwareEnabled polling = true ∧ polling.moves.script.head? = some .ctrl ∧
      decode (polling.setup.program.drop polling.ctrl.opPc) = .ok (.writeRegister 0x12#8 0x1234#16) [] := by decide

/-- A machine that has faulted with a transfer still in flight, in which CTRL is given the step. -/
def faultedInFlight : State := polling.raise .order

/-- Each of the four alternatives is met: CTRL, PLL, SHIFTER and the idle step. -/
theorem witness_OneAgentMovesInAStep :
    (∃ t, step polling = .next t) ∧ (∃ t, step locking = .next t) ∧ (∃ t, step shifting = .next t) ∧
      ∃ t, step faultedInFlight = .next t :=
  ⟨⟨_, rfl⟩, ⟨_, rfl⟩, ⟨_, rfl⟩, ⟨_, rfl⟩⟩

theorem witness_PllStepSetsLockOnly :
    pllEnabled locking = true ∧ locking.moves.script.head? = some .pll := by decide

theorem witness_ShifterStepCompletesTransfer :
    shifterEnabled shifting = true ∧ shifting.moves.script.head? = some .shifter := by decide

theorem witness_StoppedControllerStays :
    faultedInFlight.ctrl.status ≠ .run ∧ (∃ t, step faultedInFlight = .next t) ∧
      (booted []).ctrl.status = .ended ∧ hardwareEnabled (booted []) = false ∧
      ((booted []).raise .order).ctrl.status = .faulted ∧ hardwareEnabled ((booted []).raise .order) = false :=
  ⟨by decide, ⟨_, rfl⟩, by decide, by decide, by decide, by decide⟩

theorem witness_SetupNeverChanges : (∃ t, step polling = .next t) ∧ ∃ t, step shifting = .next t :=
  ⟨⟨_, rfl⟩, ⟨_, rfl⟩⟩

/-- The trace is kept by the first step and grown by the second. -/
theorem witness_TraceOnlyGrows :
    (∃ t, step polling = .next t ∧ t.env.trace = []) ∧ ∃ t, step shifting = .next t ∧ t.env.trace ≠ [] :=
  ⟨⟨_, rfl, rfl⟩, ⟨_, rfl, by decide⟩⟩

/-! ### Witnesses: registers, flags and reset -/

/-- Both ways to reset, the second from a machine whose echo double has been written. -/
theorem witness_ResetValues :
    Setup.hardware.params.profile = Profile.lpc2000 ∧
      ∃ u s : State, u.setup.params.profile = Profile.lpc2000 ∧ u.env.dev = .echo [(0x0B, 0x2021#16)] ∧
        u.env.dev.device = .echo ∧ s = u.restart ∧ s.env.dev = .echo [] :=
  ⟨rfl, { locking with env := { locking.env with dev := .echo [(0x0B, 0x2021#16)] } }, _, rfl, rfl, rfl, rfl, rfl⟩

theorem witness_ReadsAfterReset :
    Setup.hardware.params.profile = Profile.lpc2000 ∧ Setup.hardware.params.addrBits = 32 ∧
      Reg.mamtim ≠ .pllfeed ∧ Reg.pinsel0 ≠ .ioclr0 := by decide

/-- The table's three points. -/
theorem witness_BringUpFrequencies :
    clockOff.pllconAct.getLsbD 0 = false ∧ (clockIn .s2Enabled).pllconAct.getLsbD 0 = true ∧
      (clockIn .s2Enabled).pllcfgAct = 0x23 ∧ (clockIn .s2Enabled).pllconAct.getLsbD 1 = false ∧
      (clockIn .s4Switched).pllconAct = 3 ∧ (clockIn .s4Switched).plock = true ∧
      (clockIn .s4Switched).pllcfgAct = 0x23 ∧ clockOff.vpbdiv = 0 ∧
      ({ clockOff with vpbdiv := 1 } : Clk).vpbdiv = 1 := by decide

/-- A wrong width, a misaligned address, an address past ADDR_BITS and the unmapped neighbours of the map's blocks. -/
theorem witness_OnlyMappedWordsAreAccessed :
    (2 : Nat) ≠ 4 ∧ 0xE0020006 % 4 ≠ 0 ∧ 2 ^ locking.setup.params.addrBits ≤ 0x100000000 ∧
      [0xE0020010, 0xE01FC008, 0xE0028000, 0].all (fun a => (locking.setup.params.profile.regAt a).isNone) = true ∧
      (∀ r ∈ Reg.all, locking.setup.params.profile.addr r ≠ 0xE0020010) := by decide

theorem locking_legal : locking.setup.params.Legal := Params.hardware_legal

/-- The premises on the parameters where a statement has no other: StatusRegisterLayouts, FeedStateMachine,
SerialReadsArmAndClear, PollSpinsOrTimesOut. -/
theorem witness_parameters :
    locking.setup.params.profile = Profile.lpc2000 ∧ locking.setup.params.addrBits = 32 ∧
      locking.setup.params.profile.Legal locking.setup.params.addrBits ∧ locking.setup.params.Legal :=
  ⟨rfl, rfl, locking_legal.profile, locking_legal⟩

/-- Each clause at the value next to its register's range. -/
theorem witness_MeaninglessWritesAreRefused :
    locking.setup.params.profile = Profile.lpc2000 ∧ locking.setup.params.addrBits = 32 ∧
      (4#32).extractLsb' 2 30 ≠ 0 ∧ (128#32).extractLsb' 7 25 ≠ 0 ∧ (3#32).extractLsb' 0 2 = 3 ∧
      (8#32).extractLsb' 3 29 ≠ 0 ∧ (0#32).extractLsb' 0 3 = 0 ∧ (0x24#32) ≠ 0x20 ∧
      (256#32).extractLsb' 8 24 ≠ 0 ∧ (9#32).getLsbD 0 = true ∧ (6#32).toNat < 8 := by decide

theorem witness_StoredValuesReadBack :
    locking.setup.params.profile = Profile.lpc2000 ∧ locking.setup.params.addrBits = 32 ∧
      (3#32).toNat < 4 ∧ (127#32).toNat < 128 ∧ (2#32).toNat < 3 ∧ 1 ≤ (1#32).toNat ∧ (7#32).toNat < 8 ∧
      8 ≤ (8#32).toNat ∧ (254#32).toNat < 256 ∧ (254#32).toNat % 2 = 0 := by decide

/-- A read, and a write of another register than PLLFEED. -/
theorem witness_OtherAccessesAbortTheFeed :
    (∃ v t, memRead Profile.lpc2000.pllstat.addr 4 locking = .ok v t) ∧
      Reg.pllcfg ≠ .pllfeed ∧ (∃ t, memWrite Profile.lpc2000.pllcfg.addr 4 0x24#32 locking = .ok () t) ∧
      locking.setup.params.profile.Legal locking.setup.params.addrBits :=
  ⟨⟨_, _, rfl⟩, by decide, ⟨_, rfl⟩, locking_legal.profile⟩

theorem witness_SpdrWriteStartsOrCollides :
    locking.ser.busy = false ∧ polling.ser.busy = true ∧ polling.setup.params.profile = Profile.lpc2000 ∧
      locking.setup.params.profile = Profile.lpc2000 ∧ polling.setup.params.addrBits = 32 := by decide

/-- With and without the chip-select bit, in flight and not. -/
theorem witness_LatchWritesDriveChipSelect :
    polling.setup.params.profile.Legal polling.setup.params.addrBits ∧
      (∀ r, r = .ioset0 ∨ r = .ioclr0 →
        0x80#32 = (polling.setup.params.profile.layout r).value 32 0x80#32 ∧
        0x01#32 = (polling.setup.params.profile.layout r).value 32 0x01#32) ∧
      (0x80#32).getLsbD 7 = true ∧ (0x01#32).getLsbD 7 = false ∧ polling.ser.busy = true ∧ locking.ser.busy = false :=
  ⟨locking_legal.profile, by rintro r (rfl | rfl) <;> decide, by decide⟩

theorem witness_HangStaysARun :
    locking.setup.params.Legal ∧ locking.setup.params.pollBudget = none ∧ locking.ctrl.mpc = 0 ∧
      precondition .clkAwaitLock locking = true ∧
      locking.clk.plock = false ∧ polling.setup.params.pollBudget = none ∧
      awaiting (.writeRegister 0x12#8 0x1234#16) polling.ctrl.mpc = true ∧ polling.ser.spif = false :=
  ⟨Params.hardware_legal, by decide⟩

/-- Out of order: a clock operation, the bus set-up and a frame after reset. -/
theorem witness_OutOfOrderFaults :
    (booted []).ctrl.mpc = 0 ∧ precondition .clkEnable (booted []) = false ∧
      precondition (.busConfig 8#8) (booted []) = false ∧
      precondition (.readRegister 0#8) (booted []) = false ∧
        precondition (.sineTestCommand 0#8 0#8) (booted []) = false := by
  decide

theorem witness_FaultEntry :
    (booted []).ctrl.status ≠ .faulted ∧
      ∃ t, exec .clkEnable (booted []) = .next t ∧ t.ctrl.status = .faulted :=
  ⟨by decide, _, rfl, rfl⟩

/-- The last micro-step and the index after it. -/
theorem witness_EveryMicroStepAnswers :
    (machineAt .clkEnable 2 (clockIn .s1Configured) serialOff).setup.params.Legal ∧
      (machineAt .clkEnable 2 (clockIn .s1Configured) serialOff).ctrl.mpc < microSteps .clkEnable ∧
      microSteps .clkEnable ≤ (machineAt .clkEnable 3 (clockIn .s1Configured) serialOff).ctrl.mpc :=
  ⟨Params.hardware_legal, by decide⟩

/-! ### Witnesses: effects -/

/-- The hypotheses under which the operations of the two families raise ORDER. -/
theorem witness_order_clauses :
    locking.ctrl.mpc = 0 ∧ locking.clk.seqState ≠ .s0Reset ∧ locking.clk.seqState ≠ .s1Configured ∧
      locking.clk.seqState ≠ .s3Locked ∧ locking.clk.seqState ≠ .s4Switched ∧ locking.clk.seqState ≠ .s5Done ∧
      locking.ser.linkState ≠ .l1Ready ∧ (booted []).ctrl.mpc = 0 ∧ (booted []).clk.seqState ≠ .s2Enabled := by decide

/-- A machine that may begin the clock operation that needs `q`. -/
def clockReady (i : Instr) (k : Nat) (q : SeqState) : State := machineAt i k (clockIn q) serialOff

theorem witness_ClkConfigureEffect :
    (clockReady (.clkConfigure 31#5 3#2) 0 .s0Reset).setup.params.Legal ∧
      (clockReady (.clkConfigure 31#5 3#2) 0 .s0Reset).ctrl.mpc = 0 ∧
      (clockReady (.clkConfigure 31#5 3#2) 0 .s0Reset).clk.seqState = .s0Reset ∧
      (clockReady (.clkConfigure 31#5 3#2) 1 .s0Reset).ctrl.mpc = 1 ∧
      (clockReady (.clkConfigure 31#5 3#2) 2 .s0Reset).ctrl.mpc = 2 :=
  ⟨Params.hardware_legal, by decide⟩

theorem witness_ClkEnableEffect :
    (clockReady .clkEnable 0 .s1Configured).setup.params.Legal ∧ (clockReady .clkEnable 0 .s1Configured).ctrl.mpc = 0 ∧
      (clockReady .clkEnable 0 .s1Configured).clk.seqState = .s1Configured ∧
      (clockReady .clkEnable 1 .s1Configured).ctrl.mpc = 1 ∧ (clockReady .clkEnable 2 .s1Configured).ctrl.mpc = 2 :=
  ⟨Params.hardware_legal, by decide⟩

theorem witness_ClkAwaitLockEffect :
    locking.setup.params.Legal ∧ locking.ctrl.mpc = 0 ∧ locking.clk.seqState = .s2Enabled ∧ locking.clk.plock = false ∧
      (pllStep locking).ctrl.mpc = 0 ∧ (pllStep locking).clk.seqState = .s2Enabled ∧
      (pllStep locking).clk.plock = true :=
  ⟨Params.hardware_legal, by decide⟩

theorem witness_ClkSwitchEffect :
    (clockReady .clkSwitch 0 .s3Locked).setup.params.Legal ∧ (clockReady .clkSwitch 0 .s3Locked).ctrl.mpc = 0 ∧
      (clockReady .clkSwitch 0 .s3Locked).clk.seqState = .s3Locked ∧
      (clockReady .clkSwitch 0 .s3Locked).clk.plock = true ∧
      (clockReady .clkSwitch 0 .s3Locked).clk.pllcfgHold = (clockReady .clkSwitch 0 .s3Locked).clk.pllcfgAct ∧
      (clockReady .clkSwitch 1 .s3Locked).ctrl.mpc = 1 ∧ (clockReady .clkSwitch 2 .s3Locked).ctrl.mpc = 2 :=
  ⟨Params.hardware_legal, by decide⟩

theorem witness_ClkTuneMemEffect :
    (clockReady (.clkTuneMem 7#3) 0 .s4Switched).setup.params.Legal ∧
      (clockReady (.clkTuneMem 7#3) 0 .s4Switched).ctrl.mpc = 0 ∧
      (clockReady (.clkTuneMem 7#3) 0 .s4Switched).clk.seqState = .s4Switched ∧ (7#3) ≠ 0 ∧ (1#3) ≠ 0 ∧
      (clockReady (.clkTuneMem 7#3) 1 .s4Switched).ctrl.mpc = 1 ∧
      (clockReady (.clkTuneMem 7#3) 2 .s4Switched).ctrl.mpc = 2 :=
  ⟨Params.hardware_legal, by decide⟩

/-- The bounds of d, the first micro-step's state, and an index of each further one. -/
theorem witness_BusConfigEffect :
    (clockReady (.busConfig 8#8) 0 .s5Done).setup.params.Legal ∧ 8 ≤ (8#8).toNat ∧ (8#8).toNat % 2 = 0 ∧
      8 ≤ (254#8).toNat ∧ (254#8).toNat % 2 = 0 ∧
      (clockReady (.busConfig 8#8) 0 .s5Done).ctrl.mpc = 0 ∧
        (clockReady (.busConfig 8#8) 0 .s5Done).clk.seqState = .s5Done ∧
      (clockReady (.busConfig 8#8) 0 .s5Done).ser.linkState = .l0Unconfigured ∧
      (∀ k : Fin 7, (clockReady (.busConfig 8#8) k.val .s5Done).ctrl.mpc = k.val) ∧
      (clockReady (.busConfig 8#8) 4 .s5Done).ser.busy = false :=
  ⟨Params.hardware_legal, by decide⟩

/-- A machine at micro-step `k` of a frame operation with nothing in flight. -/
def linked (i : Instr) (k : Nat) : State := machineAt i k (clockIn .s5Done) (linkUp true)

/-- What DrivesCs, QueuesByte, AwaitsByte and CapturesByte ask of a state, at the first, an inner and the last
micro-step; for ReadRegisterEffect. -/
theorem witness_ReadRegisterEffect :
    (linked (.readRegister 0xFF#8) 0).setup.params.Legal ∧ (linked (.readRegister 0xFF#8) 0).ctrl.mpc = 0 ∧
      (linked (.readRegister 0xFF#8) 0).ser.busy = false ∧
      precondition (.readRegister 0xFF#8) (linked (.readRegister 0xFF#8) 0) = true ∧
      precondition (.sciReadFrame 0xFF#8) (linked (.sciReadFrame 0xFF#8) 0) = true ∧
      (linked (.readRegister 0xFF#8) 8).ctrl.mpc = 8 ∧ (linked (.readRegister 0xFF#8) 8).ser.busy = false ∧
      (linked (.readRegister 0xFF#8) 11).ctrl.mpc = 11 :=
  ⟨Params.hardware_legal, by decide⟩

theorem witness_WriteRegisterEffect :
    (linked (.writeRegister 0#8 0xFFFF#16) 0).setup.params.Legal ∧
      (linked (.writeRegister 0#8 0xFFFF#16) 0).ctrl.mpc = 0 ∧
        (linked (.writeRegister 0#8 0xFFFF#16) 0).ser.busy = false ∧
      precondition (.writeRegister 0#8 0xFFFF#16) (linked (.writeRegister 0#8 0xFFFF#16) 0) = true ∧
      precondition (.sciWriteFrame 0#8 0xFFFF#16) (linked (.sciWriteFrame 0#8 0xFFFF#16) 0) = true ∧
      (linked (.writeRegister 0#8 0xFFFF#16) 9).ctrl.mpc = 9 :=
  ⟨Params.hardware_legal, by decide⟩

theorem witness_SendCommandSequenceEffect :
    (linked (.sineTestCommand 0x6E#8 0xAA#8) 17).setup.params.Legal ∧
      precondition (.sendCommandSequence 1#8 2#8 3#8 4#8 5#8 6#8 7#8 8#8)
        (linked (.sendCommandSequence 1#8 2#8 3#8 4#8 5#8 6#8 7#8 8#8) 0) = true ∧
      precondition (.sdiCommandFrame 1#8 2#8 3#8 4#8 5#8 6#8 7#8 8#8)
        (linked (.sdiCommandFrame 1#8 2#8 3#8 4#8 5#8 6#8 7#8 8#8) 0) = true ∧
      precondition (.sineTestCommand 0x6E#8 0xAA#8) (linked (.sineTestCommand 0x6E#8 0xAA#8) 0) = true ∧
      (linked (.sineTestCommand 0x6E#8 0xAA#8) 17).ctrl.mpc = 17 ∧
      (linked (.sineTestCommand 0x6E#8 0xAA#8) 17).ser.busy = false :=
  ⟨Params.hardware_legal, by decide⟩

/-- The two frames of four bytes and the two of eight; their first micro-step may run. -/
theorem witness_WireFrameEffects :
    (linked (.sciWriteFrame 0#8 0#16) 8).setup.params.Legal ∧
      precondition (.sciReadFrame 0#8) (linked (.sciReadFrame 0#8) 0) = true ∧
      precondition (.sciWriteFrame 0#8 0#16) (linked (.sciWriteFrame 0#8 0#16) 0) = true ∧
      (linked (.sciWriteFrame 0#8 0#16) 8).ctrl.mpc = 8 ∧ (linked (.sciWriteFrame 0#8 0#16) 9).ser.busy = false ∧
      [1#8, 2#8, 3#8, 4#8, 5#8, 6#8, 7#8, 8#8][7]? = some 8#8 :=
  ⟨Params.hardware_legal, by decide⟩

theorem witness_WholeFrameOnTheWire :
    (linked (.readRegister 0#8) 0).setup.params.Legal ∧ sendsFrame (.readRegister 0#8) = true ∧
      sendsFrame (.sineTestCommand 0#8 0#8) = true ∧
      (linked (.readRegister 0#8) 0).ctrl.mpc = 0 ∧ (linked (.readRegister 0#8) 0).ser.busy = false ∧
      (linked (.readRegister 0#8) 0).ser.spcr.getLsbD 5 = true ∧
      precondition (.readRegister 0#8) (linked (.readRegister 0#8) 0) = true :=
  ⟨Params.hardware_legal, by decide⟩

theorem witness_SpifAfterFrame :
    (linked (.writeRegister 0#8 0#16) 0).setup.params.Legal ∧ sendsFrame (.writeRegister 0#8 0#16) = true ∧
      (linked (.writeRegister 0#8 0#16) 0).ctrl.mpc = 0 ∧
      (linked (.writeRegister 0#8 0#16) 0).ser.busy = false ∧
      (linked (.writeRegister 0#8 0#16) 0).ser.spcr.getLsbD 5 = true ∧
      precondition (.writeRegister 0#8 0#16) (linked (.writeRegister 0#8 0#16) 0) = true :=
  ⟨Params.hardware_legal, by decide⟩

theorem witness_EchoRoundTrip :
    let s := linked (.writeRegister 0x0B#8 0x2020#16) 0
    s.setup.params.Legal ∧ s.ctrl.mpc = 0 ∧ s.ser.busy = false ∧ s.ser.spcr.getLsbD 5 = true ∧
      csBit s.setup.params.csPin s.ser.iodir0 = true ∧
      linkReady s = true ∧ s.env.dev = .echo [] ∧ Memory.wf [] = true :=
  ⟨Params.hardware_legal, by decide⟩

/-! ### Witnesses: frames -/

theorem witness_ClockOperationsFrame :
    (∃ t, exec (.clkConfigure 0#5 0#2) (clockReady (.clkConfigure 0#5 0#2) 0 .s0Reset) = .next t) ∧
      (∃ t, exec .clkEnable (clockReady .clkEnable 2 .s1Configured) = .next t) ∧
      (∃ t, exec .clkAwaitLock locking = .next t) ∧
        (∃ t, exec .clkSwitch (clockReady .clkSwitch 1 .s3Locked) = .next t) ∧
      (∃ t, exec (.clkTuneMem 1#3) (clockReady (.clkTuneMem 1#3) 2 .s4Switched) = .next t) ∧
      locking.clk.feedState = .idle ∧ locking.setup.params.Legal :=
  ⟨⟨_, rfl⟩, ⟨_, rfl⟩, ⟨_, rfl⟩, ⟨_, rfl⟩, ⟨_, rfl⟩, rfl, locking_legal⟩

theorem witness_BusConfigFrame :
    ∃ t, exec (.busConfig 8#8) (clockReady (.busConfig 8#8) 6 .s5Done) = .next t ∧
      (clockReady (.busConfig 8#8) 6 .s5Done).ctrl.t = Profile.lpc2000.iodir0.read serialOff.iodir0 ∧
      (clockReady (.busConfig 8#8) 6 .s5Done).setup.params.Legal :=
  ⟨_, rfl, rfl, Params.hardware_legal⟩

theorem witness_TransferOperationsFrame :
    sendsFrame (.sciWriteFrame 0#8 0#16) = true ∧
      (∃ t, exec (.readRegister 0#8) (linked (.readRegister 0#8) 10) = .next t) ∧
      (∃ t, exec (.writeRegister 0#8 0#16) (linked (.writeRegister 0#8 0#16) 9) = .next t) ∧
      (∃ t, exec (.sineTestCommand 0#8 0#8) (linked (.sineTestCommand 0#8 0#8) 1) = .next t) ∧
      (linked (.sineTestCommand 0#8 0#8) 1).setup.params.Legal :=
  ⟨by decide, ⟨_, rfl⟩, ⟨_, rfl⟩, ⟨_, rfl⟩, Params.hardware_legal⟩

theorem witness_HardwareStepsFrame :
    shifting.env.dev = .echo [] ∧ ∀ hi, sciInProgress shifting.env.trace ≠ some [shifting.setup.params.sciWriteOp,
      0#8, hi] :=
  ⟨rfl, fun _ => nofun⟩

/-! ### Witnesses: invariants -/

theorem witness_RegistersStayLegal : RegistersLegal polling ∧ ∃ t, step polling = .next t :=
  ⟨by unfold RegistersLegal; decide, _, rfl⟩

theorem witness_LockStaysUnderEnable : LockNeedsEnable (pllStep locking) ∧ ∃ t, step locking = .next t :=
  ⟨by unfold LockNeedsEnable; decide, _, rfl⟩

theorem witness_FaultRecordIsSticky :
    FaultRecorded faultedInFlight ∧ (∃ t, step faultedInFlight = .next t) ∧ faultedInFlight.env.fault.isSome = true :=
  ⟨by unfold FaultRecorded; decide, ⟨_, rfl⟩, by decide⟩

theorem witness_DecoderMemoryStaysCanonical :
    shifting.env.dev.wf = true ∧ (∃ t, step shifting = .next t) ∧ Memory.wf [(0, 5#16), (255, 0#16)] = true :=
  ⟨rfl, ⟨_, rfl⟩, by decide⟩

/-- The invariant at a running position, from facts about the two units. -/
theorem blockInv_at {s : State} {i : Instr} (hl : s.setup.params.Legal) (hp : position s = some (i, s.ctrl.mpc))
    (hr : RegistersLegal s)
    (hst : s.ctrl.status = .run) (hf : s.env.fault = none) (hk : s.ctrl.mpc < microSteps i)
    (hq : precondition i s = true) (hc : ClockAt (some (i, s.ctrl.mpc)) s.clk)
    (h1 : s.ser.linkState = .l1Ready → s.clk.seqState = .s5Done ∧ s.ser.spcr = 0x20#8 ∧
      csBit s.setup.params.csPin s.ser.iodir0 = true)
    (h0 : s.ser.linkState = .l0Unconfigured → s.ser.busy = false ∧ s.ser.spif = false ∧ s.ser.spifArmed = false)
    (hw : s.ser.wcol = false)
    (hb : if awaiting i s.ctrl.mpc = true then s.ser.busy = !s.ser.spif ∧ s.ser.spifArmed = false
      else s.ser.busy = false ∧ s.ser.spifArmed = s.ser.spif)
    (hcs : sendsFrame i = true → s.ctrl.mpc ≠ 0 → csBit s.setup.params.csPin s.ser.iolatch0 = frameCs i)
    (hd : ∀ d, i = .busConfig d → s.ser.spcr = 0x20#8) : BlockInv s := by
  refine ⟨hl, hr, by simp [FaultRecorded, hst, hf], ?_, ?_, ?_, by simp [CodesInv, hf]⟩
  · simp only [CtrlInv, hp]
    exact ⟨hk, fun _ => hq⟩
  · simpa only [ClockInv, hp] using hc
  · unfold LinkInv
    rw [hp]
    refine ⟨h1, h0, hw, fun _ => hb, fun j k hj hs h => ?_, fun d k hj h => ?_⟩
    · cases hj
      exact hcs hs h
    · cases hj
      exact hd d rfl

theorem polling_inv : BlockInv polling :=
  blockInv_at (i := .writeRegister 0x12#8 0x1234#16) Params.hardware_legal (by decide)
    (by unfold RegistersLegal; decide) (by decide)
    (by decide) (by decide) (by decide) (by unfold ClockAt; decide) (by decide) (by decide) (by decide) (by decide)
    (by decide) (fun _ h => nomatch h)

theorem shifting_inv : BlockInv shifting := polling_inv

theorem locking_inv : BlockInv locking :=
  blockInv_at (i := .clkAwaitLock) Params.hardware_legal (by decide) (by unfold RegistersLegal; decide) (by decide)
    (by decide) (by decide) (by decide) (by unfold ClockAt; decide) (by decide) (by decide) (by decide) (by decide)
    (by decide) (fun _ h => nomatch h)

theorem witness_SequencerNeverGoesBack : BlockInv polling ∧ ∃ t, step polling = .next t := ⟨polling_inv, _, rfl⟩

theorem witness_EveryStepKeepsBlockInv :
    (BlockInv polling ∧ ∃ t, step polling = .next t) ∧ (BlockInv shifting ∧ ∃ t, step shifting = .next t) ∧
      BlockInv locking ∧ ∃ t, step locking = .next t :=
  ⟨⟨polling_inv, _, rfl⟩, ⟨shifting_inv, _, rfl⟩, locking_inv, _, rfl⟩

theorem witness_BlockInvAtReset : Setup.hardware.params.Legal := Params.hardware_legal

/-- A machine that runs a poll, which spins. -/
theorem witness_RunningMachineSteps :
    BlockInv locking ∧ locking.ctrl.status = .run ∧ Runs .clkAwaitLock locking ∧
      ∃ t, exec .clkAwaitLock locking = .next t ∧ t.ctrl.mpc = locking.ctrl.mpc :=
  ⟨locking_inv, rfl, ⟨rfl, by decide⟩, _, rfl, rfl⟩

/-! ### Witnesses: under every order of the agents -/

/-- WRITE_REGISTER at its start. -/
def opening : State := machineAt (.writeRegister 0x12#8 0x1234#16) 0 (clockIn .s5Done) (linkUp true)

theorem opening_inv : BlockInv opening :=
  blockInv_at (i := .writeRegister 0x12#8 0x1234#16) Params.hardware_legal (by decide)
    (by unfold RegistersLegal; decide) (by decide)
    (by decide) (by decide) (by decide) (by unfold ClockAt; decide) (by decide) (by decide) (by decide) (by decide)
    (by decide) (fun _ h => nomatch h)

/-- The first byte in flight, the select-assert on the wire, the next step SHIFTER's. -/
def midFrame : State := { shifting with env := { shifting.env with trace := [.cs false 0] } }

/-- READ_REGISTER 0x0B's last micro-step, four bytes received, 0x20 and 0x21 captured. -/
def closing : State :=
  let s := machineAt (.readRegister 0x0B#8) 11 (clockIn .s5Done) { linkUp false with spdrRx := 0x21#8 }
  { s with
    ctrl := { s.ctrl with hi := 0x20#8, lo := 0x21#8 }
    env := { s.env with
      trace := [.cs false 0, .xchg 3#8 9#8 false 0, .xchg 0x0B#8 8#8 false 0, .xchg 0xFF#8 0x20#8 false 0,
        .xchg 0xFF#8 0x21#8 false 0] } }

theorem closing_inv : BlockInv closing :=
  blockInv_at (i := .readRegister 0x0B#8) Params.hardware_legal (by decide) (by unfold RegistersLegal; decide)
    (by decide)
    (by decide) (by decide) (by decide) (by unfold ClockAt; decide) (by decide) (by decide) (by decide) (by decide)
    (by decide) (fun _ h => nomatch h)

/-- The begin, an exchange and the end of a frame. -/
theorem witness_FrameUnderEveryOrder :
    (BlockInv opening ∧ Runs (.writeRegister 0x12#8 0x1234#16) opening ∧
        sendsFrame (.writeRegister 0x12#8 0x1234#16) = true ∧ opening.ctrl.mpc = 0 ∧ ∃ t, step opening = .next t) ∧
      (BlockInv midFrame ∧ Runs (.writeRegister 0x12#8 0x1234#16) midFrame ∧ midFrame.ctrl.mpc ≠ 0 ∧
        FrameSoFar (.writeRegister 0x12#8 0x1234#16) [] [] midFrame ∧ ∃ t, step midFrame = .next t) ∧
      BlockInv closing ∧ Runs (.readRegister 0x0B#8) closing ∧ sendsFrame (.readRegister 0x0B#8) = true ∧
      closing.ctrl.mpc ≠ 0 ∧ FrameSoFar (.readRegister 0x0B#8) [] [9#8, 8#8, 0x20#8, 0x21#8] closing ∧
      ∃ t, step closing = .next t := by
  refine ⟨⟨opening_inv, ⟨by decide, by decide⟩, by decide, by decide, _, rfl⟩,
    ⟨shifting_inv, ⟨by decide, by decide⟩, by decide, ⟨by decide, by decide, by decide, fun a h => nomatch h⟩, _, rfl⟩,
    closing_inv, ⟨by decide, by decide⟩, by decide, by decide,
    ⟨by decide, by decide, by decide, fun a _ => ⟨by decide, by decide, by decide⟩⟩, _, rfl⟩

/-- A read of register 0x0B, which holds 0x2021, with its third byte in flight. -/
def echoing : State :=
  let s := machineAt (.readRegister 0x0B#8) 6 (clockIn .s5Done)
    { linkUp false with busy := true, spdrTx := 0xFF#8, spdrRx := 8#8 }
  { s with
    env := { s.env with
      dev := .echo [(0x0B, 0x2021#16)]
      trace := [.cs false 0, .xchg 3#8 9#8 false 0, .xchg 0x0B#8 8#8 false 0] }
    moves := { s.moves with script := [.shifter] } }

theorem echoing_inv : BlockInv echoing :=
  blockInv_at (i := .readRegister 0x0B#8) Params.hardware_legal (by decide) (by unfold RegistersLegal; decide)
    (by decide)
    (by decide) (by decide) (by decide) (by unfold ClockAt; decide) (by decide) (by decide) (by decide) (by decide)
    (by decide) (fun _ h => nomatch h)

theorem witness_EchoUnderEveryOrder :
    BlockInv echoing ∧ Runs (.readRegister 0x0B#8) echoing ∧ sendsFrame (.readRegister 0x0B#8) = true ∧
      echoing.ctrl.mpc ≠ 0 ∧ FrameSoFar (.readRegister 0x0B#8) [] [9#8, 8#8] echoing ∧
      EchoSoFar (.readRegister 0x0B#8) [(0x0B, 0x2021#16)] [9#8, 8#8] echoing ∧
      ∃ t, step echoing = .next t ∧ t.ctrl.mpc ≠ 0 ∧ t.ser.spdrRx = 0x20#8 := by
  refine ⟨echoing_inv, ⟨by decide, by decide⟩, by decide, by decide,
    ⟨by decide, by decide, by decide, fun a _ => ⟨by decide, by decide, by decide⟩⟩,
    ⟨rfl, fun v _ k h2 hk => absurd hk (by simp; omega)⟩, _, rfl, by decide, by decide⟩

/-- CLK_AWAIT_LOCK before lock with every choice free. -/
def freeLock : State := { locking with moves := Moves.reset }

theorem witness_FairLockEndsTheWait :
    BlockInv freeLock ∧ Runs .clkAwaitLock freeLock ∧ freeLock.clk.seqState = .s2Enabled ∧
      freeLock.setup.params.pollBudget = none ∧ freeLock.setup.params.lockFair = true ∧
        inBand freeLock.setup.params freeLock.clk.pllcfgAct = true ∧
      freeLock.moves.script = [] :=
  ⟨locking_inv, ⟨by decide, by decide⟩, by decide, by decide, by decide, by decide, by decide⟩

/-- A poll of SPSR with every choice free. -/
def freeShift : State := { polling with moves := Moves.reset }

theorem witness_FairShifterEndsTheWait :
    BlockInv freeShift ∧ Runs (.writeRegister 0x12#8 0x1234#16) freeShift ∧
      awaiting (.writeRegister 0x12#8 0x1234#16) freeShift.ctrl.mpc = true ∧ freeShift.setup.params.pollBudget = none ∧
      freeShift.setup.params.shiftFair = true ∧ freeShift.moves.script = [] :=
  ⟨polling_inv, ⟨by decide, by decide⟩, by decide, by decide, by decide, by decide⟩

end Sys2Proof.Tests
end

/-! PROOFS. The scope of the model (00_scope.md): the step of CTRL is exec of the decoded operation (R5, R6), a poll
(R11), and the instruction-rule template each micro-step keeps to (R12). -/

namespace Sys2Proof.Machine

/-! ### CTRL's step (00_scope.md R5, R6) -/

/-- CTRL moves where it is running and no other agent could, or where the script gives it the step (log 4). -/
theorem mover_eq_ctrl {s : State} (hrun : s.ctrl.status = .run)
    (hc : hardwareEnabled s = false ∨ s.moves.script.head? = some .ctrl) : mover s = some .ctrl := by
  have hctrl : ctrlEnabled s = true := by simp [ctrlEnabled, hrun]
  rcases hc with hw | hs
  · simp [mover, hw, hctrl]
  · obtain ⟨rest, hscript⟩ := List.head?_eq_some_iff.mp hs
    by_cases hw : hardwareEnabled s = true <;> simp [mover, hw, hctrl, hscript, grant]

/-- A running CTRL executes the operation its words decode to (30_encoding.md R107). -/
theorem ctrlStep_of_decode {s : State} {i : Instr} {rest : List Word} (hrun : s.ctrl.status = .run)
    (hd : decode (fetch s) = .ok i rest) : ctrlStep s = exec i s := by
  simp [ctrlStep, ctrlEnabled, hrun, hd]

/-- At words that spell no operation a running CTRL raises ILLEGAL_OP (30_encoding.md R107). -/
theorem ctrlStep_of_reject {s : State} {why : Reject} (hrun : s.ctrl.status = .run)
    (hd : decode (fetch s) = .reject why) : ctrlStep s = .next (s.raise .illegalOp) := by
  simp [ctrlStep, ctrlEnabled, hrun, hd]

/-- A step in which an agent moves is that agent's own step, with the scheduling fields brought up to date. -/
theorem step_of_mover {s : State} {a : Agent} (h : mover s = some a) : step s = settle a s (agentStep a s) := by
  simp [step, machineStep, h]

/-- Settles O8: CTRL is the mover, and its step is exec of what the decoder finds. -/
theorem stepRunsDecoded : Obligations.StepRunsDecoded := by
  unfold Obligations.StepRunsDecoded
  intro s i rest hrun hc hd
  have hstep : agentStep .ctrl s = exec i s := ctrlStep_of_decode hrun hd
  rw [step_of_mover (mover_eq_ctrl hrun hc), hstep]
  cases exec i s <;> rfl

/-! ### Polls (00_scope.md R11) -/

/-- A legal profile's registers can be read at their addresses (20_memory.md R72, R79). -/
theorem Profile.Legal.memRead_addr {s : State} (h : s.setup.params.profile.Legal s.setup.params.addrBits) (r : Reg) :
    memRead (s.setup.params.profile.addr r) 4 s = .ok (regValue r s) (readEffect r s).disarm := by
  simp [memRead, h.accessAligned_addr, h.regAt_addr, regRead]

/-- A read's side effects leave CTRL alone (20_memory.md R80). -/
@[simp] theorem readEffect_ctrl (r : Reg) (s : State) : (readEffect r s).ctrl = s.ctrl := by cases r <;> rfl

/-- A failed poll read counts, and times out exactly at a finite budget. -/
theorem pollFailed_eq_afterFailedRead (c : Code) (s : State) : s.pollFailed c = afterFailedRead c s := by
  by_cases hb : s.setup.params.pollBudget = some (s.ctrl.pollCount + 1) <;>
    simp [State.pollFailed, afterFailedRead, budgetSpent, hb, State.raise, State.setPollCount]

/-- Settles O28: the read completes and leaves CTRL alone, so only the bit read and the budget decide. -/
theorem pollSpinsOrTimesOut : Obligations.PollSpinsOrTimesOut := by
  unfold Obligations.PollSpinsOrTimesOut
  intro r bit c k s hl
  have hctrl : (readEffect r s).disarm.ctrl = s.ctrl := readEffect_ctrl r s
  refine ⟨_, hl.memRead_addr r, hctrl, ?_⟩
  simp only [poll, microRead, hl.memRead_addr r, pollFailed_eq_afterFailedRead, State.setT, State.setPollCount, hctrl]

/-! ### What decodes (30_encoding.md R105, R108) -/

/-- Whatever a decoder accepts is a well-formed host operation. -/
def OnlyOperations (d : Decoded Word) : Prop :=
  ∀ i rest, d = .ok i rest → i.wellFormed = true ∧ isOperation i = true

theorem onlyOperations_reject (why : Reject) : OnlyOperations (.reject why) := nofun

theorem onlyOperations_ok {i : Instr} (rest : List Word) (hw : i.wellFormed = true) (ho : isOperation i = true) :
    OnlyOperations (.ok i rest) := by
  rintro _ _ ⟨⟩
  exact ⟨hw, ho⟩

theorem onlyOperations_ite {c : Prop} [Decidable c] {d e : Decoded Word} (hd : c → OnlyOperations d)
    (he : OnlyOperations e) : OnlyOperations (if c then d else e) := by
  split
  · next hc => exact hd hc
  · exact he

theorem onlyOperations_plain {i : Instr} (w : Word) (rest : List Word) (hw : i.wellFormed = true)
    (ho : isOperation i = true) : OnlyOperations (decodePlain i w rest) :=
  onlyOperations_ite (fun _ => onlyOperations_ok rest hw ho) (onlyOperations_reject _)

theorem onlyOperations_sendCommandSequence (w : Word) (rest : List Word) :
    OnlyOperations (decodeSendCommandSequence w rest) := by
  refine onlyOperations_ite (fun _ => ?_) (onlyOperations_reject _)
  split
  · exact onlyOperations_ok _ rfl rfl
  · exact onlyOperations_reject _

/-- The operand checks of R108 stand in the decoders of CLK_TUNE_MEM and BUS_CONFIG; the others have none. -/
theorem decode_onlyOperations (ws : List Word) : OnlyOperations (decode ws) := by
  cases ws with
  | nil => exact onlyOperations_reject _
  | cons w rest =>
    refine onlyOperations_ite (fun _ => ?clkConfigure) <| onlyOperations_ite (fun _ => ?clkEnable) <|
      onlyOperations_ite (fun _ => ?clkAwaitLock) <| onlyOperations_ite (fun _ => ?clkSwitch) <|
      onlyOperations_ite (fun _ => ?clkTuneMem) <| onlyOperations_ite (fun _ => ?busConfig) <|
      onlyOperations_ite (fun _ => ?readRegister) <| onlyOperations_ite (fun _ => ?writeRegister) <|
      onlyOperations_ite (fun _ => ?sendCommandSequence) (onlyOperations_reject _)
    case clkConfigure => exact onlyOperations_ite (fun _ => onlyOperations_ok _ rfl rfl) (onlyOperations_reject _)
    case clkEnable => exact onlyOperations_plain _ _ rfl rfl
    case clkAwaitLock => exact onlyOperations_plain _ _ rfl rfl
    case clkSwitch => exact onlyOperations_plain _ _ rfl rfl
    case clkTuneMem =>
      exact onlyOperations_ite
        (fun _ => onlyOperations_ite (fun hw => onlyOperations_ok _ hw rfl) (onlyOperations_reject _))
        (onlyOperations_reject _)
    case busConfig =>
      exact onlyOperations_ite
        (fun _ => onlyOperations_ite (fun hw => onlyOperations_ok _ hw rfl) (onlyOperations_reject _))
        (onlyOperations_reject _)
    case readRegister => exact onlyOperations_ite (fun _ => onlyOperations_ok _ rfl rfl) (onlyOperations_reject _)
    case writeRegister => exact onlyOperations_ok _ rfl rfl
    case sendCommandSequence => exact onlyOperations_sendCommandSequence w rest

/-! ### A running operation, and what the invariant says of it -/

/-- Words that decode are the operation CTRL runs. -/
theorem runs_of_decode {s : State} {i : Instr} {rest : List Word} (hrun : s.ctrl.status = .run)
    (hd : decode (fetch s) = .ok i rest) : Runs i s :=
  ⟨hrun, by simp [opAt, hd]⟩

section Running

variable {s : State} {i : Instr} (hr : Runs i s)
include hr

theorem Runs.status_run : s.ctrl.status = .run := hr.1

/-- What runs was decoded. -/
theorem Runs.decode_fetch : ∃ rest, decode (fetch s) = .ok i rest := by
  have hop := hr.2
  unfold opAt at hop
  split at hop
  · next j rest hd =>
    cases hop
    exact ⟨rest, hd⟩
  · cases hop

theorem Runs.wellFormed : i.wellFormed = true :=
  let ⟨_, hd⟩ := hr.decode_fetch
  (decode_onlyOperations _ _ _ hd).1

theorem Runs.isOperation : isOperation i = true :=
  let ⟨_, hd⟩ := hr.decode_fetch
  (decode_onlyOperations _ _ _ hd).2

theorem Runs.position_eq : position s = some (i, s.ctrl.mpc) := by
  simp [position, hr.status_run, show opAt s = some i from hr.2]

variable (h : BlockInv s)
include h

theorem Runs.mpc_lt : s.ctrl.mpc < microSteps i := by
  obtain ⟨-, -, -, hctrl, -⟩ := h
  simp only [CtrlInv, hr.position_eq] at hctrl
  exact hctrl.1

theorem Runs.clockAt : ClockAt (some (i, s.ctrl.mpc)) s.clk := by
  obtain ⟨-, -, -, -, hclk, -⟩ := h
  rwa [ClockInv, hr.position_eq] at hclk

/-- The feed is armed exactly before FEED.f1 (40_clock.md R157). -/
theorem Runs.armed_iff : s.clk.feedState = .armed ↔ feedPending i s.ctrl.mpc = true := by
  obtain ⟨hfeed, -⟩ := hr.clockAt h
  simpa using hfeed

theorem Runs.feed_idle (hf : feedPending i s.ctrl.mpc = false) : s.clk.feedState = .idle := by
  have hn : s.clk.feedState ≠ .armed := by simp [hr.armed_iff h, hf]
  cases hs : s.clk.feedState with
  | idle => rfl
  | armed => exact absurd hs hn

/-- No transfer is in flight at a micro-step that awaits none (41_serial.md R199). -/
theorem Runs.not_busy (ha : awaiting i s.ctrl.mpc = false) : s.ser.busy = false := by
  obtain ⟨-, -, -, -, -, hlink, -⟩ := h
  rw [LinkInv, hr.position_eq] at hlink
  obtain ⟨-, -, -, htransfer, -⟩ := hlink
  have hquiet := htransfer (by simp [hr.status_run])
  simp only [Option.any_some, ha] at hquiet
  obtain ⟨hbusy, -⟩ := hquiet
  exact hbusy

end Running

/-! ### Micro-steps that keep to the template (00_scope.md R12) -/

/-- The meaning answers a next state that keeps to the operation's template. -/
def AnswersByTemplate (i : Instr) (s : State) (o : Out) : Prop := ∃ t, o = .next t ∧ KeepsToTemplate i s t

/-- CTRL is at the same micro-step of the same operation in both states. -/
def SamePlace (s u : State) : Prop :=
  u.ctrl.status = s.ctrl.status ∧ u.ctrl.opPc = s.ctrl.opPc ∧ u.ctrl.mpc = s.ctrl.mpc

/-- Every flag but the feed's has the same value in both states. -/
def SameFlags (s u : State) : Prop :=
  u.clk.plock = s.clk.plock ∧ u.ctrl.pollCount = s.ctrl.pollCount ∧ u.ser.spif = s.ser.spif ∧
    u.ser.wcol = s.ser.wcol ∧ u.ser.spifArmed = s.ser.spifArmed ∧ u.ser.busy = s.ser.busy

theorem Flag.Kept.trans {f : Flag} {s u t : State} (h : f.Kept s u) (h' : f.Kept u t) : f.Kept s t := by
  cases f <;> exact Eq.trans h' h

/-- `k` takes CTRL on to another micro-step, without a fault and without touching a flag. -/
def GoesOn (k : State → State) : Prop :=
  ∀ u : State, (∀ f : Flag, f.Kept u (k u)) ∧ (u.ctrl.status = .run → (k u).ctrl.status ≠ .faulted) ∧
    ((k u).ctrl.opPc = u.ctrl.opPc → (k u).ctrl.mpc ≠ u.ctrl.mpc)

theorem goesOn_advance : GoesOn State.advance :=
  fun u => ⟨fun f => by cases f <;> rfl, fun hrun => by simp [hrun], fun _ => by simp⟩

theorem goesOn_complete {n : Nat} (hn : n ≠ 0) : GoesOn (State.complete n) := by
  refine fun u => ⟨fun f => by cases f <;> rfl, fun hrun => ?_, fun hpc => absurd hpc (by simp [hn])⟩
  rw [State.complete_ctrl_status, hrun]
  split <;> decide

/-- An operation's end may set what is no flag and no place of CTRL's before it completes. -/
theorem goesOn_comp {k g : State → State} (hk : GoesOn k) (hplace : ∀ u, SamePlace u (g u))
    (hflags : ∀ (f : Flag) u, f.Kept u (g u)) : GoesOn (fun u => k (g u)) := by
  intro u
  obtain ⟨hstatus, hpc, hmpc⟩ := hplace u
  obtain ⟨hkept, hrun, hmove⟩ := hk (g u)
  exact ⟨fun f => (hflags f u).trans (hkept f), fun h => hrun (hstatus.trans h),
    fun h => hmpc ▸ hmove (h.trans hpc.symm)⟩

theorem goesOn_finishClock (q : SeqState) : GoesOn (State.finishClock q) :=
  goesOn_comp (goesOn_complete one_ne_zero) (fun _ => ⟨rfl, rfl, rfl⟩) (fun f _ => by cases f <;> rfl)

theorem goesOn_finishBusConfig : GoesOn State.finishBusConfig :=
  goesOn_comp (goesOn_complete one_ne_zero) (fun _ => ⟨rfl, rfl, rfl⟩) (fun f _ => by cases f <;> rfl)

theorem goesOn_finishRead : GoesOn State.finishRead :=
  goesOn_comp (g := fun u => u.giveResult (joinBytes u.ctrl.hi u.ctrl.lo)) (goesOn_complete one_ne_zero)
    (fun _ => ⟨rfl, rfl, rfl⟩) (fun f _ => by cases f <;> rfl)

section Template

variable {i : Instr} {s u : State}

/-- An ORDER fault is in every operation's list (40_clock.md R140, 41_serial.md R180). -/
theorem keepsToTemplate_order : KeepsToTemplate i s (s.raise .order) :=
  ⟨fun f _ => by cases f <;> rfl, fun _ => ⟨.order, by simp [faultCodes], rfl⟩, nofun⟩

/-- A micro-step that goes on neither faults nor spins. -/
theorem keepsToTemplate_goesOn {k : State → State} (hk : GoesOn k) (hrun : s.ctrl.status = .run)
    (hu : SamePlace s u) (hf : ∀ f, f ∉ flagsWritten i → f.Kept s u) : KeepsToTemplate i s (k u) := by
  obtain ⟨hkept, hstatus, hmove⟩ := hk u
  obtain ⟨hstatus', hpc, hmpc⟩ := hu
  exact ⟨fun f hn => (hf f hn).trans (hkept f), fun h => absurd h (hstatus (hstatus'.trans hrun)),
    fun _ h h' => absurd (h'.trans hmpc.symm) (hmove (h.trans hpc.symm))⟩

/-- A failed poll read counts, and spins or raises the operation's timeout code (00_scope.md R11). -/
theorem keepsToTemplate_pollFailed {c : Code} (hc : pollCode i = some c) (hp : .pollCount ∈ flagsWritten i)
    (hrun : s.ctrl.status = .run) (hu : SamePlace s u) (hf : ∀ f, f ∉ flagsWritten i → f.Kept s u) :
    KeepsToTemplate i s (u.pollFailed c) := by
  obtain ⟨hstatus, hpc, hmpc⟩ := hu
  have hcount : ∀ f, f ∉ flagsWritten i → f.Kept s (u.setPollCount (u.ctrl.pollCount + 1)) := by
    intro f hn
    cases f with
    | pollCount => exact absurd hp hn
    | _ => exact hf _ hn
  rcases pollFailed_cases c u with hspin | ⟨-, htimeout⟩
  · rw [hspin]
    exact ⟨hcount, fun h => absurd h (by simp [hstatus, hrun]), fun _ _ _ => by simp [hangs, hc]⟩
  · rw [htimeout]
    refine ⟨fun f hn => ?_, fun _ => ⟨c, by simp [faultCodes, hc], by simp [hpc]⟩, nofun⟩
    cases f <;> exact hcount _ hn

/-- The order check of a meaning keeps to the template; what is left is its micro-step. -/
theorem operation_answersByTemplate {micro : State → Out} (hm : AnswersByTemplate i s (micro s)) :
    AnswersByTemplate i s (operation i micro s) := by
  rcases operation_cases i micro s with ⟨he, -⟩ | ⟨he, -, -⟩ <;> rw [he]
  · exact hm
  · exact ⟨_, rfl, keepsToTemplate_order⟩

/-- The feed abort of an access changes no flag while the feed is idle (40_clock.md R148). -/
theorem Flag.kept_disarm (f : Flag) (hidle : s.clk.feedState = .idle) (hs : SameFlags s u) : f.Kept s u.disarm := by
  obtain ⟨hlock, hcount, hspif, hwcol, harmed, hbusy⟩ := hs
  cases f with
  | feedState => exact hidle.symm
  | plock => exact hlock
  | pollCount => exact hcount
  | spif => exact hspif
  | wcol => exact hwcol
  | spifArmed => exact harmed
  | busy => exact hbusy

/-- An XFER's access leaves the flags that are none of its own (41_serial.md R181). -/
theorem Flag.kept_xfer {f : Flag} (hw : flagsWritten i = xferFlags) (hn : f ∉ flagsWritten i)
    (hidle : s.clk.feedState = .idle) (hclk : u.clk = s.clk.disarm) : f.Kept s u := by
  rw [hw] at hn
  cases f with
  | feedState => simp [Flag.Kept, hclk, hidle]
  | plock => simp [Flag.Kept, hclk]
  | _ => exact absurd hn (by decide)

end Template

/-! ### The micro-steps operations share -/

/-- The micro-steps of a frame that captures nothing: the odd ones but the last queue a byte each, and the even ones but
the first await it (41_serial.md R194, R195). -/
theorem sendFrame_cases {assert release : State → Out} {bytes : List Byte} {s : State}
    (hk : s.ctrl.mpc < 2 * bytes.length + 2) :
    s.ctrl.mpc = 0 ∧ sendFrame assert release bytes s = assert s ∨
      (s.ctrl.mpc % 2 = 1 ∧ ∃ b, sendFrame assert release bytes s = xferSend b s) ∨
      sendFrame assert release bytes s = xferAwait s ∨
      s.ctrl.mpc = 2 * bytes.length + 1 ∧ sendFrame assert release bytes s = release s := by
  cases hm : s.ctrl.mpc with
  | zero => exact .inl ⟨rfl, sendFrame_assert hm⟩
  | succ j =>
    rcases Nat.lt_or_ge (j / 2) bytes.length with hj | hj
    · have hb : bytes[j / 2]? = some bytes[j / 2] := List.getElem?_eq_getElem hj
      rcases Nat.mod_two_eq_zero_or_one j with hp | hp
      · exact .inr (.inl ⟨by omega, _, sendFrame_send (by omega) hb⟩)
      · exact .inr (.inr (.inl (sendFrame_await (by omega) hb)))
    · have hlast : s.ctrl.mpc = 2 * bytes.length + 1 := by omega
      exact .inr (.inr (.inr ⟨hm ▸ hlast, sendFrame_release hlast⟩))

theorem BlockInv.legal {s : State} (h : BlockInv s) : s.setup.params.Legal := h.1

section Shared

variable {i : Instr} {s u : State} {k : State → State} (h : BlockInv s) (hr : Runs i s)
include h hr

/-- A micro-step outside a feed: an access that touches no flag of its own, then `k`. -/
theorem answersByTemplate_access {o : Out} (ho : o = .next (k u.disarm)) (hk : GoesOn k)
    (hf : feedPending i s.ctrl.mpc = false) (hu : SamePlace s u := by exact ⟨rfl, rfl, rfl⟩)
    (hs : SameFlags s u := by exact ⟨rfl, rfl, rfl, rfl, rfl, rfl⟩) : AnswersByTemplate i s o :=
  ⟨_, ho, keepsToTemplate_goesOn hk hr.status_run hu fun f _ => f.kept_disarm (hr.feed_idle h hf) hs⟩

theorem csHigh_answersByTemplate (hk : GoesOn k) (hf : feedPending i s.ctrl.mpc = false)
    (ha : awaiting i s.ctrl.mpc = false) : AnswersByTemplate i s (csHigh k s) :=
  answersByTemplate_access h hr (csHigh_eq h.legal k (hr.not_busy h ha)) hk hf

theorem csLow_answersByTemplate (hk : GoesOn k) (hf : feedPending i s.ctrl.mpc = false)
    (ha : awaiting i s.ctrl.mpc = false) : AnswersByTemplate i s (csLow k s) :=
  answersByTemplate_access h hr (csLow_eq h.legal k (hr.not_busy h ha)) hk hf

/-! #### FEED (40_clock.md R141) -/

theorem feedFirst_answersByTemplate (hw : .feedState ∈ flagsWritten i) : AnswersByTemplate i s (feedFirst s) := by
  refine ⟨_, feedFirst_eq h.legal, keepsToTemplate_goesOn goesOn_advance hr.status_run ⟨rfl, rfl, rfl⟩ fun f hn => ?_⟩
  cases f with
  | feedState => exact absurd hw hn
  | _ => rfl

/-- FEED.f1 commits, which changes PLOCK only where the rule says so (40_clock.md R152). -/
theorem feedSecond_answersByTemplate (hk : GoesOn k) (hf : feedPending i s.ctrl.mpc = true)
    (hw : .feedState ∈ flagsWritten i) (hlock : .plock ∉ flagsWritten i → s.clk.commit.plock = s.clk.plock) :
    AnswersByTemplate i s (feedSecond k s) := by
  have he := feedSecond_eq h.legal k
  rw [if_pos ((hr.armed_iff h).mpr hf)] at he
  refine ⟨_, he, keepsToTemplate_goesOn hk hr.status_run ⟨rfl, rfl, rfl⟩ fun f hn => ?_⟩
  cases f with
  | feedState => exact absurd hw hn
  | plock => exact hlock hn
  | _ => rfl

/-! #### XFER (41_serial.md R181) -/

theorem xferSend_answersByTemplate (hw : flagsWritten i = xferFlags) (hf : feedPending i s.ctrl.mpc = false)
    (ha : awaiting i s.ctrl.mpc = false) (tx : Byte) : AnswersByTemplate i s (xferSend tx s) :=
  ⟨_, xferSend_eq h.legal tx (hr.not_busy h ha), keepsToTemplate_goesOn goesOn_advance hr.status_run ⟨rfl, rfl, rfl⟩
    fun _ hn => Flag.kept_xfer hw hn (hr.feed_idle h hf) rfl⟩

theorem xferCapture_answersByTemplate {dst : Byte → State → State} (hw : flagsWritten i = xferFlags)
    (hf : feedPending i s.ctrl.mpc = false) (hplace : ∀ b u, SamePlace u (dst b u))
    (hclk : ∀ b u, (dst b u).clk = u.clk) : AnswersByTemplate i s (xferCapture dst s) :=
  ⟨_, xferCapture_eq h.legal dst, keepsToTemplate_goesOn goesOn_advance hr.status_run (hplace _ _)
    fun _ hn => Flag.kept_xfer hw hn (hr.feed_idle h hf) (hclk _ _)⟩

theorem xferAwait_answersByTemplate (hw : flagsWritten i = xferFlags) (hc : pollCode i = some .timeoutBus)
    (hf : feedPending i s.ctrl.mpc = false) : AnswersByTemplate i s (xferAwait s) := by
  refine ⟨_, xferAwait_eq h.legal, ?_⟩
  have hidle := hr.feed_idle h hf
  split
  · exact keepsToTemplate_goesOn goesOn_advance hr.status_run ⟨rfl, rfl, rfl⟩
      fun _ hn => Flag.kept_xfer hw hn hidle rfl
  · exact keepsToTemplate_pollFailed hc (by rw [hw]; decide) hr.status_run ⟨rfl, rfl, rfl⟩
      fun _ hn => Flag.kept_xfer hw hn hidle rfl

/-- Before its last micro-step and at it, a frame that captures nothing asserts chip-select, queues or awaits a byte, or
releases chip-select (41_serial.md R194, R195). -/
theorem sendFrame_answersByTemplate {assert release : State → Out} {bytes : List Byte}
    (hw : flagsWritten i = xferFlags) (hc : pollCode i = some .timeoutBus) (hf : feedPending i s.ctrl.mpc = false)
    (hk : s.ctrl.mpc < 2 * bytes.length + 2) (hodd : s.ctrl.mpc % 2 = 1 → awaiting i s.ctrl.mpc = false)
    (hassert : s.ctrl.mpc = 0 → AnswersByTemplate i s (assert s))
    (hrelease : s.ctrl.mpc = 2 * bytes.length + 1 → AnswersByTemplate i s (release s)) :
    AnswersByTemplate i s (sendFrame assert release bytes s) := by
  rcases sendFrame_cases (assert := assert) (release := release) hk with
    ⟨hm, he⟩ | ⟨hm, b, he⟩ | he | ⟨hm, he⟩ <;> rw [he]
  · exact hassert hm
  · exact xferSend_answersByTemplate h hr hw hf (hodd hm) b
  · exact xferAwait_answersByTemplate h hr hw hc hf
  · exact hrelease hm

end Shared

/-! ### The clock operations (40_clock.md R142 to R146) -/

/-- A commit of a set PLLE and of an unchanged configuration keeps PLOCK (40_clock.md R152). -/
theorem Clk.commit_keeps_plock {c : Clk} (hcfg : c.pllcfgHold = c.pllcfgAct) (hcon : c.pllconHold.getLsbD 0 = true) :
    c.commit.plock = c.plock := by
  simp [plockAfter, hcfg, hcon]

/-- After the micro-step that writes PLLCON, and with no write of PLLCFG pending, the commit keeps PLOCK where PLLE is
set (40_clock.md R149, R152). -/
theorem Runs.commit_keeps_plock {i : Instr} {s : State} (hr : Runs i s) (h : BlockInv s) {x : BitVec 2}
    (hcon : pllconPending i s.ctrl.mpc = some x) (hcfg : pllcfgPending i s.ctrl.mpc = none)
    (hx : x.getLsbD 0 = true) : s.clk.commit.plock = s.clk.plock := by
  obtain ⟨-, hconHold, hcfgHold, -⟩ := hr.clockAt h
  exact Clk.commit_keeps_plock (by simp [hcfgHold, hcfg]) (by simp [hconHold, hcon, hx])

section Operations

variable {s : State} (h : BlockInv s)
include h

theorem clkConfigure_answersByTemplate {m : BitVec 5} {p : BitVec 2} (hr : Runs (.clkConfigure m p) s) :
    AnswersByTemplate (.clkConfigure m p) s (execClkConfigure m p s) := by
  refine operation_answersByTemplate ?_
  have hk : s.ctrl.mpc < 3 := hr.mpc_lt h
  interval_cases hm : s.ctrl.mpc
  · exact answersByTemplate_access h hr (microWrite_pllcfg h.legal _ _) goesOn_advance (by simp [hm, feedPending])
  · exact feedFirst_answersByTemplate h hr (by simp [flagsWritten])
  · exact feedSecond_answersByTemplate h hr (goesOn_finishClock _) (by simp [hm, feedPending])
      (by simp [flagsWritten]) fun hn => absurd (by simp [flagsWritten]) hn

theorem clkEnable_answersByTemplate (hr : Runs .clkEnable s) : AnswersByTemplate .clkEnable s (execClkEnable s) := by
  refine operation_answersByTemplate ?_
  have hk : s.ctrl.mpc < 3 := hr.mpc_lt h
  interval_cases hm : s.ctrl.mpc
  · exact answersByTemplate_access h hr (microWrite_pllconEnable h.legal _) goesOn_advance (by simp [hm, feedPending])
  · exact feedFirst_answersByTemplate h hr (by decide)
  · exact feedSecond_answersByTemplate h hr (goesOn_finishClock _) (by simp [hm, feedPending]) (by decide)
      fun _ => hr.commit_keeps_plock h (x := 1#2) (by simp [hm, pllconPending]) rfl (by decide)

theorem clkAwaitLock_answersByTemplate (hr : Runs .clkAwaitLock s) :
    AnswersByTemplate .clkAwaitLock s (execClkAwaitLock s) := by
  refine operation_answersByTemplate ?_
  have hm : s.ctrl.mpc = 0 := Nat.lt_one_iff.mp (hr.mpc_lt h)
  have hkept : ∀ (n : Nat) (f : Flag), f ∉ flagsWritten .clkAwaitLock →
      f.Kept s ((s.disarm.setT (regValue .pllstat s)).setPollCount n) := by
    intro n f hn
    cases f with
    | pollCount => exact absurd (by decide) hn
    | feedState => exact (hr.feed_idle h rfl).symm
    | _ => rfl
  simp only [hm]
  refine ⟨_, poll_eq h.legal _ _ _ _, ?_⟩
  split
  · exact keepsToTemplate_goesOn (goesOn_finishClock _) hr.status_run ⟨rfl, rfl, rfl⟩ (hkept 0)
  · exact keepsToTemplate_pollFailed rfl (by decide) hr.status_run ⟨rfl, rfl, rfl⟩ (hkept s.ctrl.pollCount)

theorem clkSwitch_answersByTemplate (hr : Runs .clkSwitch s) : AnswersByTemplate .clkSwitch s (execClkSwitch s) := by
  refine operation_answersByTemplate ?_
  have hk : s.ctrl.mpc < 3 := hr.mpc_lt h
  interval_cases hm : s.ctrl.mpc
  · exact answersByTemplate_access h hr (microWrite_pllconConnect h.legal _) goesOn_advance (by simp [hm, feedPending])
  · exact feedFirst_answersByTemplate h hr (by decide)
  · exact feedSecond_answersByTemplate h hr (goesOn_finishClock _) (by simp [hm, feedPending]) (by decide)
      fun _ => hr.commit_keeps_plock h (x := 3#2) (by simp [hm, pllconPending]) rfl (by decide)

theorem clkTuneMem_answersByTemplate {n : BitVec 3} (hr : Runs (.clkTuneMem n) s) :
    AnswersByTemplate (.clkTuneMem n) s (execClkTuneMem n s) := by
  refine operation_answersByTemplate ?_
  have hk : s.ctrl.mpc < 3 := hr.mpc_lt h
  have hn : n ≠ 0#3 := by simpa [Instr.wellFormed] using hr.wellFormed
  interval_cases hm : s.ctrl.mpc
  · exact answersByTemplate_access h hr (microWrite_mamtim h.legal _ hn) goesOn_advance rfl
  · exact answersByTemplate_access h hr (microWrite_mamcr h.legal _ h.legal.mamMode) goesOn_advance rfl
  · exact answersByTemplate_access h hr (microWrite_vpbdiv h.legal _ h.legal.vpbdivCode) (goesOn_finishClock _) rfl

/-! ### The serial operations (41_serial.md R192 to R195) -/

theorem busConfig_answersByTemplate {d : Byte} (hr : Runs (.busConfig d) s) :
    AnswersByTemplate (.busConfig d) s (execBusConfig d s) := by
  refine operation_answersByTemplate ?_
  have hk : s.ctrl.mpc < 7 := hr.mpc_lt h
  have hd : 8 ≤ d.toNat ∧ d.toNat % 2 = 0 := by simpa [Instr.wellFormed] using hr.wellFormed
  obtain ⟨h8, h2⟩ := hd
  interval_cases hm : s.ctrl.mpc
  · exact answersByTemplate_access (u := s.setT _) h hr (microRead_eq h.legal _ _) goesOn_advance rfl
  · exact answersByTemplate_access h hr (microWrite_pinsel0 h.legal _ _) goesOn_advance rfl
  · exact answersByTemplate_access h hr (microWrite_spccr h.legal _ h8 h2) goesOn_advance rfl
  · exact answersByTemplate_access h hr (microWrite_spcr h.legal _) goesOn_advance rfl
  · exact csHigh_answersByTemplate h hr goesOn_advance rfl rfl
  · exact answersByTemplate_access (u := s.setT _) h hr (microRead_eq h.legal _ _) goesOn_advance rfl
  · exact answersByTemplate_access h hr (microWrite_iodir0 h.legal _ _) goesOn_finishBusConfig rfl

theorem readRegister_answersByTemplate {a : Byte} (hr : Runs (.readRegister a) s) :
    AnswersByTemplate (.readRegister a) s (execReadRegister a s) := by
  refine operation_answersByTemplate ?_
  have hk : s.ctrl.mpc < 12 := hr.mpc_lt h
  have hawait : AnswersByTemplate (.readRegister a) s (xferAwait s) := xferAwait_answersByTemplate h hr rfl rfl rfl
  have hsend (tx : Byte) (ha : awaiting (.readRegister a) s.ctrl.mpc = false) :
      AnswersByTemplate (.readRegister a) s (xferSend tx s) := xferSend_answersByTemplate h hr rfl rfl ha tx
  unfold sciRead
  interval_cases hm : s.ctrl.mpc
  · exact csLow_answersByTemplate h hr goesOn_advance rfl (by simp [hm, awaiting])
  · exact hsend _ rfl
  · exact hawait
  · exact hsend _ rfl
  · exact hawait
  · exact hsend _ rfl
  · exact hawait
  · exact xferCapture_answersByTemplate h hr rfl rfl (fun _ _ => ⟨rfl, rfl, rfl⟩) fun _ _ => rfl
  · exact hsend _ rfl
  · exact hawait
  · exact xferCapture_answersByTemplate h hr rfl rfl (fun _ _ => ⟨rfl, rfl, rfl⟩) fun _ _ => rfl
  · exact csHigh_answersByTemplate h hr goesOn_finishRead rfl (by simp [hm, awaiting])

theorem writeRegister_answersByTemplate {a : Byte} {v : Half} (hr : Runs (.writeRegister a v) s) :
    AnswersByTemplate (.writeRegister a v) s (execWriteRegister a v s) := by
  have hlen : (sciWriteBytes s.setup.params a v).length = 4 := rfl
  exact operation_answersByTemplate <|
    sendFrame_answersByTemplate h hr rfl rfl rfl (hr.mpc_lt h) (fun hm => by simp [awaiting, hm])
      (fun hm => csLow_answersByTemplate h hr goesOn_advance rfl (by simp [hm, awaiting]))
      (fun hm => csHigh_answersByTemplate h hr (goesOn_complete one_ne_zero) rfl (by simp [hm, hlen, awaiting]))

theorem sendCommandSequence_answersByTemplate {b0 b1 b2 b3 b4 b5 b6 b7 : Byte}
    (hr : Runs (.sendCommandSequence b0 b1 b2 b3 b4 b5 b6 b7) s) :
    AnswersByTemplate (.sendCommandSequence b0 b1 b2 b3 b4 b5 b6 b7) s
      (execSendCommandSequence b0 b1 b2 b3 b4 b5 b6 b7 s) := by
  have hlen : (sdiBytes s.setup.params [b0, b1, b2, b3, b4, b5, b6, b7]).length = 8 := by
    rw [sdiBytes_eq h.legal]
    rfl
  have hk : s.ctrl.mpc < 18 := hr.mpc_lt h
  exact operation_answersByTemplate <|
    sendFrame_answersByTemplate h hr rfl rfl rfl (by rwa [hlen]) (fun hm => by simp [awaiting, hm])
      (fun hm => csHigh_answersByTemplate h hr goesOn_advance rfl (by simp [hm, awaiting]))
      (fun hm => csLow_answersByTemplate h hr (goesOn_complete (by decide)) rfl (by simp [hm, hlen, awaiting]))

/-! ### Every operation -/

/-- Every operation a program can run answers, and keeps to its template; no program runs a wire frame
(30_encoding.md R105). -/
theorem exec_answersByTemplate {i : Instr} (hr : Runs i s) : AnswersByTemplate i s (exec i s) := by
  cases i with
  | clkConfigure m p => exact clkConfigure_answersByTemplate h hr
  | clkEnable => exact clkEnable_answersByTemplate h hr
  | clkAwaitLock => exact clkAwaitLock_answersByTemplate h hr
  | clkSwitch => exact clkSwitch_answersByTemplate h hr
  | clkTuneMem n => exact clkTuneMem_answersByTemplate h hr
  | busConfig d => exact busConfig_answersByTemplate h hr
  | readRegister a => exact readRegister_answersByTemplate h hr
  | writeRegister a v => exact writeRegister_answersByTemplate h hr
  | sendCommandSequence => exact sendCommandSequence_answersByTemplate h hr
  | sciWriteFrame | sciReadFrame | sdiCommandFrame | sineTestCommand =>
    exact absurd hr.isOperation Bool.false_ne_true

/-- A running CTRL's step answers: its words spell an operation, or it raises ILLEGAL_OP. -/
theorem ctrlStep_answers (hrun : s.ctrl.status = .run) : ∃ t, ctrlStep s = .next t := by
  cases hd : decode (fetch s) with
  | ok i rest =>
    obtain ⟨t, ht, -⟩ := exec_answersByTemplate h (runs_of_decode hrun hd)
    exact ⟨t, (ctrlStep_of_decode hrun hd).trans ht⟩
  | reject why => exact ⟨_, ctrlStep_of_reject hrun hd⟩

end Operations

/-- While CTRL runs some agent moves: CTRL itself could. -/
theorem exists_mover {s : State} (hrun : s.ctrl.status = .run) : ∃ a, mover s = some a := by
  cases hw : hardwareEnabled s with
  | false => exact ⟨.ctrl, mover_eq_ctrl hrun (.inl hw)⟩
  | true =>
    rw [mover, if_pos hw]
    split
    · exact ⟨_, rfl⟩
    · split
      · exact ⟨_, rfl⟩
      · split <;> exact ⟨_, rfl⟩

/-- Settles O56: whichever agent moves answers, PLL and SHIFTER always and CTRL by its micro-step's lemma, which also
says that the micro-step keeps to its operation's template. -/
theorem runningMachineSteps : Obligations.RunningMachineSteps := by
  unfold Obligations.RunningMachineSteps
  refine ⟨fun s h hrun => ?_, fun i s t h hr ht => ?_⟩
  · obtain ⟨a, ha⟩ := exists_mover hrun
    have hanswer : ∃ t, agentStep a s = .next t := by
      cases a with
      | pll => exact ⟨_, rfl⟩
      | shifter => exact ⟨_, rfl⟩
      | ctrl => exact ctrlStep_answers h hrun
    obtain ⟨t, ht⟩ := hanswer
    exact ⟨{ t with moves := movesAfter a s }, by rw [step_of_mover ha, ht]; rfl⟩
  · obtain ⟨t', ht', hkeeps⟩ := exec_answersByTemplate h hr
    cases ht.symm.trans ht'
    exact hkeeps

end Sys2Proof.Machine

/-! PROOFS. The state (10_state.md). First what one step can do: an access, what CTRL makes of it, and the agents'
steps, each said once (20_memory.md R80 to R83, 00_scope.md R5, 60_exceptions.md R240). Then, from that, what every step
keeps, the registers as they read, and the state after reset. -/

namespace Sys2Proof.Machine

/-! ### What one access leaves (20_memory.md R80 to R83) -/

/-- The state an access leaves, whether or not it raises a code. -/
def Access.left {α : Type} : Access α → State
  | .ok _ s => s
  | .bad _ s => s

@[simp] theorem Access.left_ok {α : Type} (x : α) (s : State) : (Access.ok x s).left = s := rfl
@[simp] theorem Access.left_bad {α : Type} (c : Code) (s : State) : (Access.bad c s : Access α).left = s := rfl

/-- What one access of CTRL's can leave of `s`: nothing changed, the side effects of a read, or what a write that its
register accepts stores, with the feed abort or without it (40_clock.md R148). -/
inductive Accessed (s : State) : State → Prop
  | untouched : Accessed s s
  | read (r : Reg) : Accessed s (readEffect r s).disarm
  | stored (r : Reg) (v : Word) (ha : r.accepts s.setup.params.profile v = true) : Accessed s (storeReg r v s).left
  | storedAborting (r : Reg) (v : Word) (ha : r.accepts s.setup.params.profile v = true) :
    Accessed s (storeReg r v s).left.disarm

theorem feedAbort_left (r : Reg) (a : Access Unit) :
    (feedAbort r a).left = a.left ∨ (feedAbort r a).left = a.left.disarm := by
  cases a with
  | ok v s =>
    by_cases h : r = .pllfeed
    · exact .inl (if_pos h)
    · exact .inr (if_neg h)
  | bad c s => cases c <;> simp [feedAbort]

theorem regWrite_accessed (r : Reg) (v : Word) (s : State) : Accessed s (regWrite r v s).left := by
  unfold regWrite
  split
  · next ha =>
    rcases feedAbort_left r (storeReg r v s) with he | he <;> rw [he]
    · exact .stored r v ha
    · exact .storedAborting r v ha
  · exact .untouched

/-- What an access leaves alone: CTRL, the parameters, the sequencer, the fault record and DEV; of the wire it makes one
event at most. -/
structure AccessFrame (s u : State) : Prop where
  ctrl : u.ctrl = s.ctrl
  setup : u.setup = s.setup
  seqState : u.clk.seqState = s.clk.seqState
  fault : u.env.fault = s.env.fault
  dev : u.env.dev = s.env.dev
  trace : u.env.trace = s.env.trace ∨ ∃ e, u.env.trace = s.env.trace ++ [e]

theorem AccessFrame.refl (s : State) : AccessFrame s s := ⟨rfl, rfl, rfl, rfl, rfl, .inl rfl⟩

theorem AccessFrame.disarm {s u : State} (h : AccessFrame s u) : AccessFrame s u.disarm :=
  ⟨h.ctrl, h.setup, h.seqState, h.fault, h.dev, h.trace⟩

theorem readEffect_frame (r : Reg) (s : State) : AccessFrame s (readEffect r s) := by
  cases r <;> exact ⟨rfl, rfl, rfl, rfl, rfl, .inl rfl⟩

theorem Clk.feedWrite_seqState (par : Params) (b : Byte) (c : Clk) : (c.feedWrite par b).seqState = c.seqState := by
  unfold Clk.feedWrite
  split
  · rfl
  · split <;> rfl

theorem spdrWrite_frame (b : Byte) (s : State) : AccessFrame s (spdrWrite b s).left := by
  unfold spdrWrite
  split <;> exact ⟨rfl, rfl, rfl, rfl, rfl, .inl rfl⟩

/-- A write of the chip-select bit is the access that emits an event (41_serial.md R190). -/
theorem latchWrite_frame (v latch : Word) (s : State) : AccessFrame s (latchWrite v latch s).left := by
  unfold latchWrite
  split
  · split
    · exact .refl s
    · exact ⟨rfl, rfl, rfl, rfl, rfl, .inr ⟨_, rfl⟩⟩
  · exact ⟨rfl, rfl, rfl, rfl, rfl, .inl rfl⟩

theorem storeReg_frame (r : Reg) (v : Word) (s : State) : AccessFrame s (storeReg r v s).left := by
  cases r with
  | pllfeed => exact ⟨rfl, rfl, Clk.feedWrite_seqState _ _ _, rfl, rfl, .inl rfl⟩
  | spdr => exact spdrWrite_frame _ s
  | ioset0 | ioclr0 => exact latchWrite_frame _ _ s
  | _ => exact ⟨rfl, rfl, rfl, rfl, rfl, .inl rfl⟩

theorem Accessed.frame {s u : State} (h : Accessed s u) : AccessFrame s u := by
  cases h with
  | untouched => exact .refl s
  | read r => exact (readEffect_frame r s).disarm
  | stored r v _ => exact storeReg_frame r v s
  | storedAborting r v _ => exact (storeReg_frame r v s).disarm

/-! ### What CTRL does after its access (10_state.md R21 to R24) -/

/-- The sequencer state that an operation's end sets (40_clock.md R142 to R146). -/
def seqEnd : Instr → Option SeqState
  | .clkConfigure _ _ => some .s1Configured
  | .clkEnable => some .s2Enabled
  | .clkAwaitLock => some .s3Locked
  | .clkSwitch => some .s4Switched
  | .clkTuneMem _ => some .s5Done
  | _ => none

/-- CTRL of an operation `i` going on from what its access left, without a fault: outside CTRL and the result log only
the sequencer and the link may change, the sequencer to the state in which `i` ends, and CTRL may end the program. -/
structure Continues (i : Instr) (u t : State) : Prop where
  setup : t.setup = u.setup
  trace : t.env.trace = u.env.trace
  fault : t.env.fault = u.env.fault
  dev : t.env.dev = u.env.dev
  clk : t.clk = u.clk ∨ ∃ q, seqEnd i = some q ∧ t.clk = { u.clk with seqState := q }
  ser : ∃ q, t.ser = { u.ser with linkState := q }
  status : t.ctrl.status = u.ctrl.status ∨ t.ctrl.status = .ended

section Continues

variable {i : Instr}

theorem Continues.trans {u w t : State} (h : Continues i u w) (h' : Continues i w t) : Continues i u t where
  setup := h'.setup.trans h.setup
  trace := h'.trace.trans h.trace
  fault := h'.fault.trans h.fault
  dev := h'.dev.trans h.dev
  clk := by
    rcases h'.clk with e' | ⟨q, hq, e'⟩
    · rw [e']
      exact h.clk
    · rcases h.clk with e | ⟨_, _, e⟩ <;> exact .inr ⟨q, hq, by rw [e', e]⟩
  ser := by
    obtain ⟨_, e⟩ := h.ser
    obtain ⟨q, e'⟩ := h'.ser
    exact ⟨q, by rw [e', e]⟩
  status := by
    rcases h'.status with e' | e'
    · rw [e']
      exact h.status
    · exact .inr e'

/-- An update of CTRL's own fields that leaves the status. -/
theorem continues_ctrl {u : State} {c : Ctrl} (hc : c.status = u.ctrl.status) :
    Continues i u { u with ctrl := c } :=
  ⟨rfl, rfl, rfl, rfl, .inl rfl, ⟨_, rfl⟩, .inl hc⟩

theorem continues_advance (u : State) : Continues i u u.advance := continues_ctrl rfl

theorem continues_setT (v : Word) (u : State) : Continues i u (u.setT v) := continues_ctrl rfl

theorem continues_setPollCount (n : Nat) (u : State) : Continues i u (u.setPollCount n) := continues_ctrl rfl

theorem continues_complete (n : Nat) (u : State) : Continues i u (u.complete n) := by
  refine ⟨rfl, rfl, rfl, rfl, .inl rfl, ⟨_, rfl⟩, ?_⟩
  rw [State.complete_ctrl_status]
  split
  · exact .inr rfl
  · exact .inl rfl

theorem continues_finishClock {q : SeqState} (hq : seqEnd i = some q) (u : State) :
    Continues i u (u.finishClock q) :=
  have hseq : Continues i u (u.setSeq q) := ⟨rfl, rfl, rfl, rfl, .inr ⟨q, hq, rfl⟩, ⟨_, rfl⟩, .inl rfl⟩
  hseq.trans (continues_complete 1 _)

theorem continues_finishBusConfig (u : State) : Continues i u u.finishBusConfig :=
  have hlink : Continues i u (u.setLink .l1Ready) := ⟨rfl, rfl, rfl, rfl, .inl rfl, ⟨_, rfl⟩, .inl rfl⟩
  hlink.trans (continues_complete 1 _)

theorem continues_finishRead (u : State) : Continues i u u.finishRead :=
  have hresult : Continues i u (u.giveResult (joinBytes u.ctrl.hi u.ctrl.lo)) :=
    ⟨rfl, rfl, rfl, rfl, .inl rfl, ⟨_, rfl⟩, .inl rfl⟩
  hresult.trans (continues_complete 1 _)

end Continues

/-! ### What one micro-step can do (00_scope.md R5, 60_exceptions.md R232) -/

/-- CTRL goes on from `u`, or goes on and then raises a code. -/
def GoesOnOrRaises (i : Instr) (u t : State) : Prop := ∃ w, Continues i u w ∧ (t = w ∨ ∃ c, t = w.raise c)

/-- A micro-step of `i`: one access, and then CTRL's own part. -/
def MicroEffect (i : Instr) (s t : State) : Prop := ∃ u, Accessed s u ∧ GoesOnOrRaises i u t

theorem Continues.goesOnOrRaises {i : Instr} {u w : State} (h : Continues i u w) : GoesOnOrRaises i u w :=
  ⟨w, h, .inl rfl⟩

theorem goesOnOrRaises_raise (i : Instr) (c : Code) (u : State) : GoesOnOrRaises i u (u.raise c) :=
  ⟨u, continues_ctrl rfl, .inr ⟨c, rfl⟩⟩

theorem Continues.then_raises {i : Instr} {u w t : State} (h : Continues i u w) (h' : GoesOnOrRaises i w t) :
    GoesOnOrRaises i u t :=
  let ⟨x, hx, ht⟩ := h'
  ⟨x, h.trans hx, ht⟩

theorem goesOnOrRaises_pollFailed (i : Instr) (c : Code) (u : State) : GoesOnOrRaises i u (u.pollFailed c) := by
  rcases pollFailed_cases c u with he | ⟨-, he⟩ <;> rw [he]
  · exact (continues_setPollCount _ u).goesOnOrRaises
  · exact (continues_setPollCount _ u).then_raises (goesOnOrRaises_raise i c _)

/-- A fault in place of the access, as the order check raises it. -/
theorem microEffect_raise (i : Instr) (c : Code) (s : State) : MicroEffect i s (s.raise c) :=
  ⟨s, .untouched, goesOnOrRaises_raise i c s⟩

/-- The outcome is a next state that a micro-step of `i` can leave. -/
def AnswersEffect (i : Instr) (s : State) (o : Out) : Prop := ∃ t, o = .next t ∧ MicroEffect i s t

section Shared

variable {i : Instr} {s : State}

theorem microWrite_effect (r : Reg) (v : Word) {k : State → State} (hk : ∀ u, Continues i u (k u)) :
    AnswersEffect i s (microWrite r v k s) := by
  rcases microWrite_cases r v k s with ⟨q, u, hw, he⟩ | ⟨q, c, u, hw, he⟩ | he
  · have hu : Accessed s u := by simpa [hw] using regWrite_accessed q v s
    exact ⟨_, he, u, hu, (hk u).goesOnOrRaises⟩
  · have hu : Accessed s u := by simpa [hw] using regWrite_accessed q v s
    exact ⟨_, he, u, hu, goesOnOrRaises_raise i c u⟩
  · exact ⟨_, he, microEffect_raise i _ s⟩

theorem microRead_effect (r : Reg) {k : Word → State → State} (hk : ∀ v u, GoesOnOrRaises i u (k v u)) :
    AnswersEffect i s (microRead r k s) := by
  rcases microRead_cases r k s with ⟨q, he⟩ | he
  · exact ⟨_, he, _, .read q, (continues_setT _ _).then_raises (hk _ _)⟩
  · exact ⟨_, he, microEffect_raise i _ s⟩

theorem microRead_advance_effect (r : Reg) : AnswersEffect i s (microRead r (fun _ t => t.advance) s) :=
  microRead_effect r fun _ u => (continues_advance u).goesOnOrRaises

theorem poll_effect (r : Reg) (bit : Nat) (c : Code) {k : State → State} (hk : ∀ u, Continues i u (k u)) :
    AnswersEffect i s (poll r bit c k s) := by
  refine microRead_effect r fun v u => ?_
  split
  · exact ((continues_setPollCount 0 u).trans (hk _)).goesOnOrRaises
  · exact goesOnOrRaises_pollFailed i c u

theorem feedFirst_effect : AnswersEffect i s (feedFirst s) := microWrite_effect _ _ continues_advance

theorem feedSecond_effect {k : State → State} (hk : ∀ u, Continues i u (k u)) : AnswersEffect i s (feedSecond k s) :=
  microWrite_effect _ _ hk

theorem xferSend_effect (tx : Byte) : AnswersEffect i s (xferSend tx s) := microWrite_effect _ _ continues_advance

theorem xferAwait_effect : AnswersEffect i s (xferAwait s) := poll_effect _ _ _ continues_advance

theorem xferCapture_effect {dst : Byte → State → State} (hd : ∀ b u, Continues i u (dst b u)) :
    AnswersEffect i s (xferCapture dst s) :=
  microRead_effect _ fun _ u => ((hd _ u).trans (continues_advance _)).goesOnOrRaises

theorem csHigh_effect {k : State → State} (hk : ∀ u, Continues i u (k u)) : AnswersEffect i s (csHigh k s) :=
  microWrite_effect _ _ hk

theorem csLow_effect {k : State → State} (hk : ∀ u, Continues i u (k u)) : AnswersEffect i s (csLow k s) :=
  microWrite_effect _ _ hk

end Shared

/-! ### What a meaning can do (10_state.md R24, log 16) -/

/-- A meaning of `n` micro-steps: it answers at each of them, and stops by name at any other index. -/
def HasMicroSteps (i : Instr) (n : Nat) (s : State) (o : Out) : Prop :=
  s.ctrl.mpc < n ∧ AnswersEffect i s o ∨ n ≤ s.ctrl.mpc ∧ o = .fault .noMicroStep

/-- How many micro-steps a meaning has: those of its rule, which for a command sequence are two for each of the SEQ_LEN
bytes and two for chip-select (41_serial.md R195, log 26). -/
def stepCount (par : Params) (i : Instr) : Nat :=
  match carrier i with
  | .sendCommandSequence b0 b1 b2 b3 b4 b5 b6 b7 => 2 * (sdiBytes par [b0, b1, b2, b3, b4, b5, b6, b7]).length + 2
  | _ => microSteps i

theorem stepCount_eq {par : Params} (h : par.Legal) (i : Instr) : stepCount par i = microSteps i := by
  cases i <;> simp [stepCount, carrier, sineTest, sdiBytes_eq h, microSteps]

section Meanings

variable {i : Instr} {s : State}

theorem hasMicroSteps_of {n : Nat} {o : Out} (hlt : s.ctrl.mpc < n → AnswersEffect i s o)
    (hge : ∀ j, s.ctrl.mpc = j + n → o = .fault .noMicroStep) : HasMicroSteps i n s o := by
  rcases Nat.lt_or_ge s.ctrl.mpc n with hk | hk
  · exact .inl ⟨hk, hlt hk⟩
  · obtain ⟨j, hj⟩ := Nat.exists_eq_add_of_le' hk
    exact .inr ⟨hk, hge j hj⟩

theorem sciRead_hasMicroSteps (a : Byte) : HasMicroSteps i 12 s (sciRead a s) := by
  refine hasMicroSteps_of (fun hk => ?_) fun j hj => by simp [sciRead, hj]
  unfold sciRead
  interval_cases s.ctrl.mpc
  · exact csLow_effect continues_advance
  · exact xferSend_effect _
  · exact xferAwait_effect
  · exact xferSend_effect _
  · exact xferAwait_effect
  · exact xferSend_effect _
  · exact xferAwait_effect
  · exact xferCapture_effect fun _ _ => continues_ctrl rfl
  · exact xferSend_effect _
  · exact xferAwait_effect
  · exact xferCapture_effect fun _ _ => continues_ctrl rfl
  · exact csHigh_effect continues_finishRead

/-- A frame that captures nothing has two micro-steps for each byte and two for chip-select. -/
theorem sendFrame_hasMicroSteps {assert release : State → Out} (bytes : List Byte)
    (ha : AnswersEffect i s (assert s)) (hr : AnswersEffect i s (release s)) :
    HasMicroSteps i (2 * bytes.length + 2) s (sendFrame assert release bytes s) := by
  refine hasMicroSteps_of (fun hk => ?_) fun j hj => sendFrame_past (by omega)
  rcases sendFrame_cases (assert := assert) (release := release) hk with
    ⟨-, he⟩ | ⟨-, b, he⟩ | he | ⟨-, he⟩ <;> rw [he]
  · exact ha
  · exact xferSend_effect b
  · exact xferAwait_effect
  · exact hr

theorem sciWrite_hasMicroSteps (a : Byte) (v : Half) : HasMicroSteps i 10 s (sciWrite a v s) :=
  sendFrame_hasMicroSteps (sciWriteBytes s.setup.params a v) (csLow_effect continues_advance)
    (csHigh_effect (continues_complete 1))

theorem sdiSend_hasMicroSteps (bytes : List Byte) :
    HasMicroSteps i (2 * (sdiBytes s.setup.params bytes).length + 2) s (sdiSend bytes s) :=
  sendFrame_hasMicroSteps _ (csHigh_effect continues_advance) (csLow_effect (continues_complete 3))

/-- What a meaning can do: the order check refuses it at mpc 0, or it does its current micro-step. -/
def Means (i : Instr) (s : State) (o : Out) : Prop :=
  o = .next (s.raise .order) ∧ s.ctrl.mpc = 0 ∨
    (s.ctrl.mpc = 0 → precondition i s = true) ∧ HasMicroSteps i (stepCount s.setup.params i) s o

theorem operation_means {micro : State → Out} {n : Nat} (hn : stepCount s.setup.params i = n)
    (hm : HasMicroSteps i n s (micro s)) : Means i s (operation i micro s) := by
  subst hn
  rcases operation_cases i micro s with ⟨he, hp⟩ | ⟨he, h0, -⟩ <;> rw [he]
  · exact .inr ⟨hp, hm⟩
  · exact .inl ⟨rfl, h0⟩

end Meanings

section Exec

variable (s : State)

theorem execClkConfigure_means (m : BitVec 5) (p : BitVec 2) :
    Means (.clkConfigure m p) s (execClkConfigure m p s) := by
  refine operation_means (n := 3) rfl (hasMicroSteps_of (fun hk => ?_) fun j hj => by simp [hj])
  interval_cases s.ctrl.mpc
  · exact microWrite_effect _ _ continues_advance
  · exact feedFirst_effect
  · exact feedSecond_effect (continues_finishClock rfl)

theorem execClkEnable_means : Means .clkEnable s (execClkEnable s) := by
  refine operation_means (n := 3) rfl (hasMicroSteps_of (fun hk => ?_) fun j hj => by simp [hj])
  interval_cases s.ctrl.mpc
  · exact microWrite_effect _ _ continues_advance
  · exact feedFirst_effect
  · exact feedSecond_effect (continues_finishClock rfl)

theorem execClkAwaitLock_means : Means .clkAwaitLock s (execClkAwaitLock s) := by
  refine operation_means (n := 1) rfl (hasMicroSteps_of (fun hk => ?_) fun j hj => by simp [hj])
  interval_cases s.ctrl.mpc
  · exact poll_effect _ _ _ (continues_finishClock rfl)

theorem execClkSwitch_means : Means .clkSwitch s (execClkSwitch s) := by
  refine operation_means (n := 3) rfl (hasMicroSteps_of (fun hk => ?_) fun j hj => by simp [hj])
  interval_cases s.ctrl.mpc
  · exact microWrite_effect _ _ continues_advance
  · exact feedFirst_effect
  · exact feedSecond_effect (continues_finishClock rfl)

theorem execClkTuneMem_means (n : BitVec 3) : Means (.clkTuneMem n) s (execClkTuneMem n s) := by
  refine operation_means (n := 3) rfl (hasMicroSteps_of (fun hk => ?_) fun j hj => by simp [hj])
  interval_cases s.ctrl.mpc
  · exact microWrite_effect _ _ continues_advance
  · exact microWrite_effect _ _ continues_advance
  · exact microWrite_effect _ _ (continues_finishClock rfl)

theorem execBusConfig_means (d : Byte) : Means (.busConfig d) s (execBusConfig d s) := by
  refine operation_means (n := 7) rfl (hasMicroSteps_of (fun hk => ?_) fun j hj => by simp [hj])
  interval_cases s.ctrl.mpc
  · exact microRead_advance_effect _
  · exact microWrite_effect _ _ continues_advance
  · exact microWrite_effect _ _ continues_advance
  · exact microWrite_effect _ _ continues_advance
  · exact csHigh_effect continues_advance
  · exact microRead_advance_effect _
  · exact microWrite_effect _ _ continues_finishBusConfig

/-- The inversion lemma for CTRL's micro-step, for every instruction and every state: a frame row does what its
operation's shared meaning does (log 13). -/
theorem exec_means (i : Instr) : Means i s (exec i s) := by
  cases i with
  | clkConfigure m p => exact execClkConfigure_means s m p
  | clkEnable => exact execClkEnable_means s
  | clkAwaitLock => exact execClkAwaitLock_means s
  | clkSwitch => exact execClkSwitch_means s
  | clkTuneMem n => exact execClkTuneMem_means s n
  | busConfig d => exact execBusConfig_means s d
  | readRegister a | sciReadFrame a => exact operation_means rfl (sciRead_hasMicroSteps a)
  | writeRegister a v | sciWriteFrame a v => exact operation_means rfl (sciWrite_hasMicroSteps a v)
  | sendCommandSequence | sdiCommandFrame | sineTestCommand => exact operation_means rfl (sdiSend_hasMicroSteps _)

end Exec

/-- Every operation has a first micro-step. -/
theorem microSteps_pos (i : Instr) : 0 < microSteps i := by
  cases i <;> exact Nat.succ_pos _

/-- Settles O32: an operation's rule has a micro-step, so past its last the order check is passed. -/
theorem everyMicroStepAnswers : Obligations.EveryMicroStepAnswers := by
  unfold Obligations.EveryMicroStepAnswers
  intro i s hl
  have hmeans := exec_means s i
  have hpos := microSteps_pos i
  rw [Means, HasMicroSteps, stepCount_eq hl] at hmeans
  rcases hmeans with ⟨he, h0⟩ | ⟨-, ⟨hlt, t, he, -⟩ | ⟨hge, he⟩⟩
  · exact ⟨fun _ => ⟨_, he⟩, fun hge => by omega⟩
  · exact ⟨fun _ => ⟨t, he⟩, fun hge => by omega⟩
  · exact ⟨fun hlt => by omega, fun _ => he⟩

/-! ### What one step can do (00_scope.md R6, 60_exceptions.md R240) -/

/-- A meaning's next state is the order check's, or one that a micro-step leaves, whose precondition held if it is the
first (40_clock.md R140, 41_serial.md R180). -/
theorem exec_next {i : Instr} {s t : State} (h : exec i s = .next t) :
    t = s.raise .order ∨ (s.ctrl.mpc = 0 → precondition i s = true) ∧ MicroEffect i s t := by
  rcases exec_means s i with ⟨he, -⟩ | ⟨hp, ⟨-, u, he, hu⟩ | ⟨-, he⟩⟩
  · cases h.symm.trans he
    exact .inl rfl
  · cases h.symm.trans he
    exact .inr ⟨hp, hu⟩
  · cases h.symm.trans he

theorem exec_effect {i : Instr} {s t : State} (h : exec i s = .next t) : MicroEffect i s t := by
  rcases exec_next h with rfl | ⟨-, ht⟩
  · exact microEffect_raise i .order s
  · exact ht

/-- The states an agent's step can leave of `s`, the scheduling fields apart. -/
inductive Stepped (s : State) : State → Prop
  | lock (h : pllEnabled s = true) : Stepped s (pllStep s)
  | shift (h : shifterEnabled s = true) : Stepped s (shifterStep s)
  | idle (h : s.ctrl.status ≠ .run) : Stepped s s
  | illegal (h : s.ctrl.status = .run) : Stepped s (s.raise .illegalOp)
  | ran {i : Instr} {t : State} (h : Runs i s) (ht : exec i s = .next t) : Stepped s t

theorem ctrlStep_stepped {s t : State} (h : ctrlStep s = .next t) : Stepped s t := by
  by_cases hrun : s.ctrl.status = .run
  · cases hd : decode (fetch s) with
    | ok i rest => exact .ran (runs_of_decode hrun hd) ((ctrlStep_of_decode hrun hd).symm.trans h)
    | reject why =>
      cases (ctrlStep_of_reject hrun hd).symm.trans h
      exact .illegal hrun
  · have hidle : ctrlStep s = .next s := by simp [ctrlStep, ctrlEnabled, hrun]
    cases hidle.symm.trans h
    exact .idle hrun

/-- An agent moves only if it is enabled, CTRL apart (log 21). -/
def MayMove (s : State) : Agent → Prop
  | .pll => pllEnabled s = true
  | .shifter => shifterEnabled s = true
  | .ctrl => True

theorem grant_mayMove (s : State) (a : Agent) : MayMove s (grant s a) := by
  cases a with
  | pll =>
    by_cases h : pllEnabled s = true
    · rwa [grant, if_pos h]
    · rw [grant, if_neg h]
      trivial
  | shifter =>
    by_cases h : shifterEnabled s = true
    · rwa [grant, if_pos h]
    · rw [grant, if_neg h]
      trivial
  | ctrl => trivial

theorem mover_mayMove {s : State} {a : Agent} (h : mover s = some a) : MayMove s a := by
  unfold mover at h
  split at h
  · split at h
    · cases h
      exact grant_mayMove s _
    · split at h
      · next hlock =>
        cases h
        simp only [lockOverdue, Bool.and_eq_true] at hlock
        obtain ⟨⟨⟨hpll, -⟩, -⟩, -⟩ := hlock
        exact hpll
      · split at h
        · next hshift =>
          cases h
          simp only [shiftOverdue, Bool.and_eq_true] at hshift
          obtain ⟨⟨hshifter, -⟩, -⟩ := hshift
          exact hshifter
        · cases h
          exact grant_mayMove s _
  · split at h <;> cases h
    trivial

theorem agentStep_stepped {s t : State} {a : Agent} (ha : MayMove s a) (h : agentStep a s = .next t) :
    Stepped s t := by
  cases a with
  | pll =>
    cases h
    exact .lock ha
  | shifter =>
    cases h
    exact .shift ha
  | ctrl => exact ctrlStep_stepped h

theorem step_of_no_mover {s : State} (h : mover s = none) : step s = halted s := by
  simp [step, machineStep, h]

theorem halted_faults (s : State) : ∃ r, halted s = .fault r := by
  unfold halted
  split <;> exact ⟨_, rfl⟩

/-- The inversion lemma for the machine's step. -/
theorem step_stepped {s t : State} (h : step s = .next t) : ∃ u m, Stepped s u ∧ t = { u with moves := m } := by
  cases hm : mover s with
  | none =>
    obtain ⟨r, hr⟩ := halted_faults s
    cases h.symm.trans ((step_of_no_mover hm).trans hr)
  | some a =>
    rw [step_of_mover hm] at h
    cases ha : agentStep a s with
    | next u =>
      rw [ha] at h
      cases h
      exact ⟨u, _, agentStep_stepped (mover_mayMove hm) ha, rfl⟩
    | fault | refused =>
      rw [ha] at h
      cases h

/-! ### What every step keeps (10_state.md R20, R25, R35, R50, R52) -/

/-- Settles O12: out of RUN only PLL, SHIFTER and the idle step are left, and none of them touches CTRL. -/
theorem stoppedControllerStays : Obligations.StoppedControllerStays := by
  unfold Obligations.StoppedControllerStays
  intro s hstop
  refine ⟨fun t h => ?_, fun hw => ?_⟩
  · obtain ⟨u, m, hu, rfl⟩ := step_stepped h
    cases hu with
    | lock | shift | idle => exact ⟨rfl, rfl, rfl⟩
    | illegal hrun => exact absurd hrun hstop
    | ran hr => exact absurd hr.status_run hstop
  · have hnone : mover s = none := by simp [mover, hw, ctrlEnabled, hstop]
    rw [step_of_no_mover hnone]
    cases hs : s.ctrl.status with
    | run => exact absurd hs hstop
    | ended | faulted => simp [halted, hs]

/-- A micro-step keeps the parameters and DEV, and makes one event of the wire at most. -/
theorem MicroEffect.keeps {i : Instr} {s t : State} (h : MicroEffect i s t) :
    t.setup = s.setup ∧ t.env.dev = s.env.dev ∧
      (t.env.trace = s.env.trace ∨ ∃ e, t.env.trace = s.env.trace ++ [e]) := by
  obtain ⟨u, hu, w, hw, ht⟩ := h
  have hkeeps : w.setup = s.setup ∧ w.env.dev = s.env.dev ∧
      (w.env.trace = s.env.trace ∨ ∃ e, w.env.trace = s.env.trace ++ [e]) := by
    rw [hw.setup, hw.dev, hw.trace]
    exact ⟨hu.frame.setup, hu.frame.dev, hu.frame.trace⟩
  rcases ht with rfl | ⟨c, rfl⟩ <;> exact hkeeps

/-- Settles O13: no agent writes `setup`, and the SHIFTER's exchange keeps DEV's constructor. -/
theorem setupNeverChanges : Obligations.SetupNeverChanges := by
  unfold Obligations.SetupNeverChanges
  intro s t h
  obtain ⟨u, m, hu, rfl⟩ := step_stepped h
  cases hu with
  | lock | idle | illegal => exact ⟨rfl, rfl, rfl⟩
  | shift => exact ⟨rfl, rfl, Dev.answer_device ..⟩
  | ran _ ht =>
    obtain ⟨hsetup, hdev, -⟩ := (exec_effect ht).keeps
    exact ⟨congrArg _ hsetup, congrArg _ hsetup, congrArg _ hdev⟩

/-- Settles O14: the SHIFTER appends one event, and a micro-step one at most. -/
theorem traceOnlyGrows : Obligations.TraceOnlyGrows := by
  unfold Obligations.TraceOnlyGrows
  intro s t h
  obtain ⟨u, m, hu, rfl⟩ := step_stepped h
  cases hu with
  | lock | idle | illegal => exact .inl rfl
  | shift => exact .inr ⟨_, rfl⟩
  | ran _ ht =>
    obtain ⟨-, -, htrace⟩ := (exec_effect ht).keeps
    exact htrace

/-- At each of an operation's micro-steps its precondition holds once the order check is passed (10_state.md R24). -/
theorem Runs.precondition {i : Instr} {s : State} (hr : Runs i s) (h : BlockInv s)
    (h0 : s.ctrl.mpc = 0 → precondition i s = true) : precondition i s = true := by
  obtain ⟨-, -, -, hctrl, -⟩ := h
  simp only [CtrlInv, hr.position_eq] at hctrl
  obtain ⟨-, hlater⟩ := hctrl
  by_cases hm : s.ctrl.mpc = 0
  · exact h0 hm
  · exact hlater hm

/-- A clock operation ends in the state after the one it requires (40_clock.md R140). -/
theorem rank_seqEnd {i : Instr} {s : State} {q : SeqState} (hp : precondition i s = true) (hq : seqEnd i = some q) :
    q.rank = s.clk.seqState.rank + 1 := by
  cases i with
  | clkConfigure | clkEnable | clkAwaitLock | clkSwitch | clkTuneMem =>
    cases hq
    rw [eq_of_beq hp]
    rfl
  | _ => cases hq

/-- Settles O15: only CTRL moves the sequencer, at the end of a clock operation, whose precondition held. -/
theorem sequencerNeverGoesBack : Obligations.SequencerNeverGoesBack := by
  unfold Obligations.SequencerNeverGoesBack
  intro s t hinv h
  obtain ⟨u, m, hu, rfl⟩ := step_stepped h
  cases hu with
  | lock | shift | idle | illegal => exact .inl rfl
  | @ran i _ hr ht =>
    rcases exec_next ht with rfl | ⟨hp, v, hv, w, hw, hend⟩
    · exact .inl rfl
    · have hseq := hv.frame.seqState
      have hadvance : w.clk.seqState.rank = s.clk.seqState.rank ∨ w.clk.seqState.rank = s.clk.seqState.rank + 1 := by
        rcases hw.clk with e | ⟨q, hq, e⟩ <;> rw [e]
        · exact .inl (congrArg _ hseq)
        · exact .inr (rank_seqEnd (hr.precondition hinv hp) hq)
      rcases hend with rfl | ⟨c, rfl⟩ <;> exact hadvance

theorem FaultRecorded.fault_eq_none {s : State} (h : FaultRecorded s) (hrun : s.ctrl.status = .run) :
    s.env.fault = none := by
  rw [FaultRecorded, hrun] at h
  simpa using h

/-- A micro-step of a running CTRL leaves FAULTED and a record together, or neither (60_exceptions.md R232). -/
theorem MicroEffect.faultRecorded {i : Instr} {s t : State} (h : MicroEffect i s t) (hrun : s.ctrl.status = .run)
    (hrec : FaultRecorded s) : FaultRecorded t := by
  obtain ⟨u, hu, w, hw, rfl | ⟨c, rfl⟩⟩ := h
  · have hfault : t.env.fault.isSome ≠ true := by
      rw [hw.fault, hu.frame.fault, hrec.fault_eq_none hrun]
      decide
    have hstatus : t.ctrl.status ≠ .faulted := by
      rcases hw.status with e | e
      · rw [e, hu.frame.ctrl, hrun]
        decide
      · rw [e]
        decide
    exact iff_of_false hstatus hfault
  · exact iff_of_true rfl rfl

/-- Settles O52: a fault is recorded as CTRL stops, and once it has stopped no agent touches the record. -/
theorem faultRecordIsSticky : Obligations.FaultRecordIsSticky := by
  unfold Obligations.FaultRecordIsSticky
  intro s t hrec h
  obtain ⟨u, m, hu, rfl⟩ := step_stepped h
  have hkept : s.ctrl.status = .run → ∀ r, s.env.fault = some r → u.env.fault = some r := fun hrun r hr => by
    rw [hrec.fault_eq_none hrun] at hr
    cases hr
  cases hu with
  | lock | shift | idle => exact ⟨hrec, fun _ hr => hr⟩
  | illegal hrun => exact ⟨iff_of_true rfl rfl, hkept hrun⟩
  | ran hr ht => exact ⟨(exec_effect ht).faultRecorded hr.status_run hrec, hkept hr.status_run⟩

/-! ### Registers stay legal (10_state.md R26 to R38) -/

/-- Only the registers' codes count, and not the feed, the lock or the sequencer. -/
theorem RegistersLegal.congr {s u : State} (h : RegistersLegal s) (hsetup : u.setup = s.setup)
    (hclk : ∃ f p q, u.clk = { s.clk with feedState := f, plock := p, seqState := q })
    (hspcr : u.ser.spcr = s.ser.spcr) (hspccr : u.ser.spccr = s.ser.spccr) : RegistersLegal u := by
  obtain ⟨f, p, q, e⟩ := hclk
  simpa only [RegistersLegal, hsetup, e, hspcr, hspccr] using h

theorem RegistersLegal.disarm {s : State} (h : RegistersLegal s) : RegistersLegal s.disarm :=
  h.congr rfl ⟨_, _, _, rfl⟩ rfl rfl

theorem RegistersLegal.readEffect {s : State} (h : RegistersLegal s) (r : Reg) : RegistersLegal (readEffect r s) := by
  cases r with
  | spdr => exact h.congr rfl ⟨_, _, _, rfl⟩ (Ser.clearArmed_spcr _) (Ser.clearArmed_spccr _)
  | _ => exact h

/-- A commit makes active only what the holding copies held (40_clock.md R149). -/
theorem RegistersLegal.feedWrite {s : State} (h : RegistersLegal s) (b : Byte) :
    RegistersLegal { s with clk := s.clk.feedWrite s.setup.params b } := by
  unfold Clk.feedWrite
  split
  · exact h
  · split
    · obtain ⟨hmamcr, hmamtim, hvpbdiv, hspcr, hspccr, hcon, -, hcfg, -⟩ := h
      exact ⟨hmamcr, hmamtim, hvpbdiv, hspcr, hspccr, hcon, hcon, hcfg, hcfg⟩
    · exact h

theorem RegistersLegal.spdrWrite {s : State} (h : RegistersLegal s) (b : Byte) :
    RegistersLegal (spdrWrite b s).left := by
  have hser : ∀ r : Ser, r.spcr = s.ser.clearArmed.spcr → r.spccr = s.ser.clearArmed.spccr →
      RegistersLegal { s with ser := r } := fun r hr hr' =>
    h.congr rfl ⟨_, _, _, rfl⟩ (hr.trans (Ser.clearArmed_spcr _)) (hr'.trans (Ser.clearArmed_spccr _))
  unfold Machine.spdrWrite
  split <;> exact hser _ rfl rfl

theorem RegistersLegal.latchWrite {s : State} (h : RegistersLegal s) (v latch : Word) :
    RegistersLegal (latchWrite v latch s).left := by
  unfold Machine.latchWrite
  split
  · split <;> exact h
  · exact h

/-- What a register stores is a code of its own, since it accepts nothing else (20_memory.md R83). -/
theorem RegistersLegal.storeReg {s : State} (h : RegistersLegal s) {r : Reg} {v : Word}
    (ha : r.accepts s.setup.params.profile v = true) : RegistersLegal (storeReg r v s).left := by
  obtain ⟨hmamcr, hmamtim, hvpbdiv, hspcr, hspccr, hconHold, hconAct, hcfgHold, hcfgAct⟩ := id h
  have hcode : ∀ {w : Nat} {l : CodedLayout}, l.accepts w v = true → l.codes.has (l.value w v) = true :=
    CodedLayout.has_of_accepts
  cases r with
  | mamcr => exact ⟨hcode ha, hmamtim, hvpbdiv, hspcr, hspccr, hconHold, hconAct, hcfgHold, hcfgAct⟩
  | mamtim => exact ⟨hmamcr, hcode ha, hvpbdiv, hspcr, hspccr, hconHold, hconAct, hcfgHold, hcfgAct⟩
  | vpbdiv => exact ⟨hmamcr, hmamtim, hcode ha, hspcr, hspccr, hconHold, hconAct, hcfgHold, hcfgAct⟩
  | spcr => exact ⟨hmamcr, hmamtim, hvpbdiv, .inr (hcode ha), hspccr, hconHold, hconAct, hcfgHold, hcfgAct⟩
  | spccr => exact ⟨hmamcr, hmamtim, hvpbdiv, hspcr, .inr (hcode ha), hconHold, hconAct, hcfgHold, hcfgAct⟩
  | pllcon => exact ⟨hmamcr, hmamtim, hvpbdiv, hspcr, hspccr, hcode ha, hconAct, hcfgHold, hcfgAct⟩
  | pllcfg => exact ⟨hmamcr, hmamtim, hvpbdiv, hspcr, hspccr, hconHold, hconAct, hcode ha, hcfgAct⟩
  | pllfeed => exact h.feedWrite _
  | spdr => exact h.spdrWrite _
  | ioset0 | ioclr0 => exact h.latchWrite _ _
  | pllstat | spsr | iodir0 | pinsel0 => exact h

theorem Accessed.registersLegal {s u : State} (ha : Accessed s u) (h : RegistersLegal s) : RegistersLegal u := by
  cases ha with
  | untouched => exact h
  | read r => exact (h.readEffect r).disarm
  | stored r v hacc => exact h.storeReg hacc
  | storedAborting r v hacc => exact (h.storeReg hacc).disarm

theorem Continues.registersLegal {i : Instr} {u t : State} (hc : Continues i u t) (h : RegistersLegal u) :
    RegistersLegal t := by
  obtain ⟨l, hser⟩ := hc.ser
  refine h.congr hc.setup ?_ (by rw [hser]) (by rw [hser])
  rcases hc.clk with e | ⟨q, -, e⟩ <;> exact ⟨_, _, _, e⟩

/-- Settles O50: a micro-step stores what a register accepts, and no other agent writes one that has codes. -/
theorem registersStayLegal : Obligations.RegistersStayLegal := by
  unfold Obligations.RegistersStayLegal
  intro s t hlegal h
  obtain ⟨u, m, hu, rfl⟩ := step_stepped h
  cases hu with
  | lock | shift | idle | illegal => exact hlegal
  | ran _ ht =>
    obtain ⟨v, hv, w, hw, hend⟩ := exec_effect ht
    have hkept := hw.registersLegal (hv.registersLegal hlegal)
    rcases hend with rfl | ⟨c, rfl⟩ <;> exact hkept

/-! ### Registers as they read (10_state.md R26 to R47) -/

/-- The feed abort is seen in no register (40_clock.md R148). -/
theorem regValue_disarm (r : Reg) (s : State) : regValue r s.disarm = regValue r s := by cases r <;> rfl

theorem Profile.Legal.memWrite_addr {s : State} (h : s.setup.params.profile.Legal s.setup.params.addrBits) (r : Reg)
    (v : Word) : memWrite (s.setup.params.profile.addr r) 4 v s = regWrite r v s := by
  simp [memWrite, h.accessAligned_addr, h.regAt_addr]

theorem Profile.legal_of_lpc2000 {p : Params} (hP : p.profile = Profile.lpc2000) (hb : p.addrBits = 32) :
    p.profile.Legal p.addrBits := by
  rw [hP, hb]
  exact Profile.lpc2000_legal

/-- The word `v` is accepted by the register `r`, which then reads as `v`, while no other register reads otherwise. -/
structure StoresWord (r : Reg) (v : Word) (s t : State) : Prop where
  accepts : r.accepts s.setup.params.profile v = true
  noFeed : r ≠ .pllfeed
  stored : storeReg r v s = .ok () t
  reads : regValue r t = v
  others : ∀ q, q ≠ r → regValue q t = regValue q s

/-- A register that stores a word is written and read back by accesses at its address. -/
theorem StoresWord.readsBack {r : Reg} {v : Word} {s t : State} (h : StoresWord r v s t)
    (hP : s.setup.params.profile = Profile.lpc2000) (hb : s.setup.params.addrBits = 32) :
    ∃ t, memWrite (Profile.lpc2000.addr r) 4 v s = .ok () t ∧
      (∃ u, memRead (Profile.lpc2000.addr r) 4 t = .ok v u) ∧ ∀ q : Reg, q ≠ r → regValue q t = regValue q s := by
  have hsetup : t.setup = s.setup := by simpa [h.stored] using (storeReg_frame r v s).setup
  have hwrite : memWrite (Profile.lpc2000.addr r) 4 v s = .ok () t.disarm := by
    rw [← hP, (Profile.legal_of_lpc2000 hP hb).memWrite_addr]
    simp [regWrite, h.accepts, h.stored, feedAbort, h.noFeed]
  have hread : memRead (Profile.lpc2000.addr r) 4 t.disarm = .ok v (readEffect r t.disarm).disarm := by
    have hl : t.disarm.setup.params.profile.Legal t.disarm.setup.params.addrBits := by
      rw [State.disarm_setup, hsetup]
      exact Profile.legal_of_lpc2000 hP hb
    have hread := hl.memRead_addr r
    rwa [State.disarm_setup, hsetup, hP, regValue_disarm, h.reads] at hread
  exact ⟨_, hwrite, ⟨_, hread⟩, fun q hq => (regValue_disarm q t).trans (h.others q hq)⟩

/-- A register whose value stands in the word's low bits takes the words that spell its codes. -/
theorem CodedLayout.accepts_range {l : CodedLayout} {w : Nat} {v : Word} (hb : l.bits = List.range w) (hw : w ≤ 32)
    (hv : v.toNat < 2 ^ w) (hc : ∀ x : BitVec w, x.toNat = v.toNat → l.codes.has x = true) :
    l.accepts w v = true := by
  have hcode := hc (l.value w v) (by rw [RegLayout.value_range hb hw, BitVec.toNat_setWidth, Nat.mod_eq_of_lt hv])
  rw [CodedLayout.accepts, RegLayout.clean_range hb, decide_eq_true hv, hcode]
  rfl

/-- The registers that keep what is written to them (10_state.md R26, R27, R32 to R34, R36 to R38, R46). -/
def storingRegs : List Reg := [.mamcr, .mamtim, .pllcon, .pllcfg, .vpbdiv, .spcr, .spccr, .iodir0, .pinsel0]

/-- A store into one of them shows in that register only. -/
theorem regValue_storeReg_other {q r : Reg} (v : Word) (s : State) (hr : r ∈ storingRegs) (hq : q ≠ r) :
    regValue q (storeReg r v s).left = regValue q s := by
  cases r with
  | mamcr => cases q with | mamcr => exact absurd rfl hq | _ => rfl
  | mamtim => cases q with | mamtim => exact absurd rfl hq | _ => rfl
  | pllcon => cases q with | pllcon => exact absurd rfl hq | _ => rfl
  | pllcfg => cases q with | pllcfg => exact absurd rfl hq | _ => rfl
  | vpbdiv => cases q with | vpbdiv => exact absurd rfl hq | _ => rfl
  | spcr => cases q with | spcr => exact absurd rfl hq | _ => rfl
  | spccr => cases q with | spccr => exact absurd rfl hq | _ => rfl
  | iodir0 => cases q with | iodir0 => exact absurd rfl hq | _ => rfl
  | pinsel0 => cases q with | pinsel0 => exact absurd rfl hq | _ => rfl
  | pllstat | pllfeed | spsr | spdr | ioset0 | ioclr0 => exact absurd hr (by decide)

theorem storesWord_of_mem {r : Reg} {v : Word} {s t : State} (hr : r ∈ storingRegs)
    (ha : r.accepts s.setup.params.profile v = true) (hs : storeReg r v s = .ok () t) (hv : regValue r t = v) :
    StoresWord r v s t where
  accepts := ha
  noFeed := by
    rintro rfl
    exact absurd hr (by decide)
  stored := hs
  reads := hv
  others := fun q hq => by simpa [hs] using regValue_storeReg_other v s hr hq

/-- A register that stores codes of `w` bits in the word's low bits, whose reserved bits read 0. -/
theorem storesWord_coded {r : Reg} {l : CodedLayout} {w : Nat} {v : Word} {s t : State} (hr : r ∈ storingRegs)
    (hacc : r.accepts s.setup.params.profile v = l.accepts w v) (hs : storeReg r v s = .ok () t)
    (hread : regValue r t = l.read (l.value w v)) (hb : l.bits = List.range w) (hw : w ≤ 32)
    (hres : l.reserved = 0#32) (hv : v.toNat < 2 ^ w)
    (hc : ∀ x : BitVec w, x.toNat = v.toNat → l.codes.has x = true) : StoresWord r v s t :=
  storesWord_of_mem hr (hacc.trans (CodedLayout.accepts_range hb hw hv hc)) hs
    (hread.trans (RegLayout.read_range hb hw hres hv))

section Stores

variable {s : State} {v : Word} (hP : s.setup.params.profile = Profile.lpc2000)
include hP

theorem storesWord_pllcon (hv : v.toNat < 4) : ∃ t, StoresWord .pllcon v s t :=
  ⟨_, storesWord_coded (l := Profile.lpc2000.pllcon) (w := 2) (by decide) (by rw [← hP]; rfl) rfl (by rw [← hP]; rfl)
    rfl (by decide) rfl hv fun _ _ => rfl⟩

theorem storesWord_pllcfg (hv : v.toNat < 128) : ∃ t, StoresWord .pllcfg v s t :=
  ⟨_, storesWord_coded (l := Profile.lpc2000.pllcfg) (w := 7) (by decide) (by rw [← hP]; rfl) rfl (by rw [← hP]; rfl)
    rfl (by decide) rfl hv fun _ _ => rfl⟩

theorem storesWord_mamcr (hv : v.toNat < 3) : ∃ t, StoresWord .mamcr v s t :=
  ⟨_, storesWord_coded (l := Profile.lpc2000.mamcr) (w := 2) (by decide) (by rw [← hP]; rfl) rfl (by rw [← hP]; rfl)
    rfl (by decide) rfl (by omega) fun x hx => by simp [Profile.lpc2000, CodeSet.has, hx, show v.toNat ≠ 3 by omega]⟩

theorem storesWord_mamtim (h1 : 1 ≤ v.toNat) (hv : v.toNat < 8) : ∃ t, StoresWord .mamtim v s t :=
  ⟨_, storesWord_coded (l := Profile.lpc2000.mamtim) (w := 3) (by decide) (by rw [← hP]; rfl) rfl (by rw [← hP]; rfl)
    rfl (by decide) rfl hv fun x hx => by simp [Profile.lpc2000, CodeSet.has, hx, show v.toNat ≠ 0 by omega]⟩

theorem storesWord_vpbdiv (hv : v.toNat < 3) : ∃ t, StoresWord .vpbdiv v s t :=
  ⟨_, storesWord_coded (l := Profile.lpc2000.vpbdiv) (w := 2) (by decide) (by rw [← hP]; rfl) rfl (by rw [← hP]; rfl)
    rfl (by decide) rfl (by omega) fun x hx => by simp [Profile.lpc2000, CodeSet.has, hx, show v.toNat ≠ 3 by omega]⟩

theorem storesWord_spcr (hv : v = 0x20#32) : ∃ t, StoresWord .spcr v s t :=
  ⟨_, storesWord_coded (l := Profile.lpc2000.spcr) (w := 8) (by decide) (by rw [← hP]; rfl) rfl (by rw [← hP]; rfl)
    rfl (by decide) rfl (by simp [hv]) fun x hx => by simp [Profile.lpc2000, CodeSet.has, hx, hv]⟩

theorem storesWord_spccr (h8 : 8 ≤ v.toNat) (hv : v.toNat < 256) (h2 : v.toNat % 2 = 0) :
    ∃ t, StoresWord .spccr v s t :=
  ⟨_, storesWord_coded (l := Profile.lpc2000.spccr) (w := 8) (by decide) (by rw [← hP]; rfl) rfl (by rw [← hP]; rfl)
    rfl (by decide) rfl hv fun x hx => by simp [Profile.lpc2000, CodeSet.has, hx, h8, h2]⟩

theorem storesWord_iodir0 : ∃ t, StoresWord .iodir0 v s t := by
  refine ⟨_, storesWord_of_mem (by decide) rfl rfl ?_⟩
  simp only [regValue, hP]
  rw [Profile.lpc2000, RegLayout.value_low, RegLayout.read_low]

theorem storesWord_pinsel0 : ∃ t, StoresWord .pinsel0 v s t := by
  refine ⟨_, storesWord_of_mem (by decide) rfl rfl ?_⟩
  simp only [regValue, hP]
  rw [Profile.lpc2000, RegLayout.value_low, RegLayout.read_low]

end Stores

/-- Settles O21: each of the nine registers stores the word, and its address leads to it. -/
theorem storedValuesReadBack : Obligations.StoredValuesReadBack := by
  unfold Obligations.StoredValuesReadBack
  intro r v s hP hb hr
  have hstores : ∃ t, StoresWord r v s t := by
    rcases hr with ⟨rfl, hv⟩ | ⟨rfl, hv⟩ | ⟨rfl, hv⟩ | ⟨rfl, h1, hv⟩ | ⟨rfl, hv⟩ | ⟨rfl, hv⟩ | ⟨rfl, h8, hv, h2⟩ |
      rfl | rfl
    · exact storesWord_pllcon hP hv
    · exact storesWord_pllcfg hP hv
    · exact storesWord_mamcr hP hv
    · exact storesWord_mamtim hP h1 hv
    · exact storesWord_vpbdiv hP hv
    · exact storesWord_spcr hP hv
    · exact storesWord_spccr hP h8 hv h2
    · exact storesWord_iodir0 hP
    · exact storesWord_pinsel0 hP
  obtain ⟨t, ht⟩ := hstores
  exact ht.readsBack hP hb

/-- A reserved place reads 0 where the profile's reserved bits do (93_implementation_defined.md U10). -/
theorem RegLayout.read_reserved {l : RegLayout} (hr : l.reserved = 0#32) {w : Nat} (x : BitVec w) {j : Nat}
    (hj : j ∉ l.bits) : (l.read x).getLsbD j = false := by
  rw [RegLayout.read_eq_word l hr]
  by_cases h32 : j < 32
  · rw [Bool.eq_false_iff, ne_eq, l.getLsbD_word x h32]
    rintro ⟨i, hi, -⟩
    exact hj (List.mem_of_getElem? hi)
  · exact BitVec.getLsbD_of_ge _ _ (by omega)

/-- PLLSTAT's value, counted in its three parts (10_state.md R28). -/
theorem Clk.getLsbD_pllstat (c : Clk) (k : Nat) :
    c.pllstat.getLsbD k =
      if k < 7 then c.pllcfgAct.getLsbD k else if k < 9 then c.pllconAct.getLsbD (k - 7) else k = 9 && c.plock := by
  rw [Clk.pllstat, BitVec.getLsbD_append, BitVec.getLsbD_append, BitVec.getLsbD_ofBool]
  split
  · rfl
  · next h7 =>
    have hcon : k - 7 < 2 ↔ k < 9 := by omega
    have hlock : ¬k < 9 → (k - 7 - 2 = 0 ↔ k = 9) := by omega
    by_cases h9 : k < 9 <;> simp [hcon, hlock, h9]

/-- SPSR's value, counted in its two bits (10_state.md R40). -/
theorem Ser.getLsbD_spsr (r : Ser) (k : Nat) :
    r.spsr.getLsbD k = if k < 1 then k = 0 && r.spif else k - 1 = 0 && r.wcol := by
  rw [Ser.spsr, BitVec.getLsbD_append, BitVec.getLsbD_ofBool, BitVec.getLsbD_ofBool]

/-- Settles O22: the layouts give each bit its place, and a place they do not list reads 0. -/
theorem statusRegisterLayouts : Obligations.StatusRegisterLayouts := by
  unfold Obligations.StatusRegisterLayouts
  intro s k hP
  have hstat : Profile.lpc2000.pllstat.Fits 10 := Profile.lpc2000_legal.pllstat
  have hspsr : Profile.lpc2000.spsr.Fits 2 := Profile.lpc2000_legal.spsr
  simp only [regValue, hP]
  constructor
  · split_ifs with h7 h8 h9 h10
    · have hplace : Profile.lpc2000.pllstat.bits[k]? = some k := by interval_cases k <;> rfl
      rw [RegLayout.read_at hstat _ hplace, Clk.getLsbD_pllstat, if_pos h7]
    · subst h8
      exact (RegLayout.read_at hstat (k := 7) _ rfl).trans (Clk.getLsbD_pllstat _ _)
    · subst h9
      exact (RegLayout.read_at hstat (k := 8) _ rfl).trans (Clk.getLsbD_pllstat _ _)
    · subst h10
      exact (RegLayout.read_at hstat (k := 9) _ rfl).trans (Clk.getLsbD_pllstat _ _)
    · have hplace : k ∉ [0, 1, 2, 3, 4, 5, 6, 8, 9, 10] := by
        simp only [List.mem_cons, List.not_mem_nil, or_false]
        omega
      exact RegLayout.read_reserved rfl _ hplace
  · split_ifs with h7 h6
    · subst h7
      exact (RegLayout.read_at hspsr (k := 0) _ rfl).trans (Ser.getLsbD_spsr _ _)
    · subst h6
      exact (RegLayout.read_at hspsr (k := 1) _ rfl).trans (Ser.getLsbD_spsr _ _)
    · have hplace : k ∉ [7, 6] := by simp [h7, h6]
      exact RegLayout.read_reserved rfl _ hplace

/-! ### Reset (10_state.md R55, 70_reset_and_hazards.md R260) -/

/-- A reset of a machine in any state is the reset of its program, parameters and DEVICE (70_reset_and_hazards.md
R260). -/
theorem State.restart_eq_boot {u : State} {p : Setup} {d : Device} (hp : u.setup = p) (hd : u.env.dev.device = d) :
    u.restart = State.boot p d := by rw [State.restart, hp, hd]

/-- Settles O16: the profile's reset values are those of R55, and a restart is a reset. -/
theorem resetValues : Obligations.ResetValues := by
  unfold Obligations.ResetValues
  intro p d hP s hs
  obtain rfl : s = State.boot p d := by
    rcases hs with rfl | ⟨u, hp, hd, rfl⟩
    · rfl
    · exact State.restart_eq_boot hp hd
  have hreset : p.params.profile.reset = ResetValues.lpc2000 := congrArg Profile.reset hP
  refine ⟨rfl, rfl, ?status, rfl, congrArg Clk.reset hreset, congrArg Ser.reset hreset, ?env, rfl, ?unwritten⟩
  case status => simp [State.boot, Ctrl.reset]
  case env => cases d <;> rfl
  case unwritten => exact fun regs a hregs => Device.reset_unwritten hregs a

/-- Every register of PROFILE_LPC2000 that reads its own value reads 0 after reset, but MAMTIM (10_state.md R55). -/
theorem regValue_boot {p : Setup} (d : Device) {r : Reg} (hP : p.params.profile = Profile.lpc2000) (hf : r ≠ .pllfeed)
    (hc : r ≠ .ioclr0) : regValue r (State.boot p d) = if r = .mamtim then 7#32 else 0#32 := by
  cases r with
  | pllfeed => exact absurd rfl hf
  | ioclr0 => exact absurd rfl hc
  | _ =>
    simp only [regValue, State.boot, Clk.reset, Ser.reset, Clk.pllstat, Ser.spsr, hP]
    decide

/-- Settles O17: each address leads to its register, and no PLL is connected. -/
theorem readsAfterReset : Obligations.ReadsAfterReset := by
  unfold Obligations.ReadsAfterReset
  intro p d r hP hb hf hc
  have hreset : p.params.profile.reset = ResetValues.lpc2000 := congrArg Profile.reset hP
  have hclk : (State.boot p d).clk = Clk.reset ResetValues.lpc2000 := congrArg Clk.reset hreset
  have hcclk : cclk p.params (State.boot p d).clk = p.params.fosc := by rw [hclk]; rfl
  have hl : p.params.profile.Legal p.params.addrBits := Profile.legal_of_lpc2000 hP hb
  have hread := Profile.Legal.memRead_addr (s := State.boot p d) hl r
  rw [regValue_boot d hP hf hc] at hread
  have hpclk : pclk p.params (State.boot p d).clk = some (p.params.fosc / 4) := by
    rw [pclk, hcclk, vpbDivider, hP, hclk]
    rfl
  exact ⟨⟨_, hread⟩, by rw [hclk]; rfl, hcclk, hpclk⟩

/-- CTRL's position has CTRL's micro-step index. -/
theorem position_mpc {s : State} {i : Instr} {k : Nat} (h : position s = some (i, k)) : k = s.ctrl.mpc := by
  unfold position at h
  split at h
  · obtain ⟨j, -, hj⟩ := Option.map_eq_some_iff.mp h
    cases hj
    rfl
  · cases h

/-- At a first micro-step CTRL's position says only that nothing of the operation has been done yet. -/
theorem position_start {s : State} (h0 : s.ctrl.mpc = 0) : position s = none ∨ ∃ i, position s = some (i, 0) := by
  cases hp : position s with
  | none => exact .inl rfl
  | some p =>
    obtain ⟨i, k⟩ := p
    exact .inr ⟨i, by rw [position_mpc hp, h0]⟩

theorem ctrlInv_start {s : State} (h0 : s.ctrl.mpc = 0) : CtrlInv s := by
  unfold CtrlInv
  rcases position_start h0 with hp | ⟨i, hp⟩ <;> rw [hp]
  · exact fun _ => h0
  · exact ⟨microSteps_pos i, fun h => absurd rfl h⟩

/-- Between operations nothing is pending in the clock unit. -/
theorem clockAt_start {s : State} (h0 : s.ctrl.mpc = 0) {c : Clk} (h : ClockAt none c) : ClockAt (position s) c := by
  rcases position_start h0 with hp | ⟨i, hp⟩ <;> rw [hp]
  · exact h
  · cases i <;> exact h

/-- Between operations no transfer is awaited and no frame is in progress. -/
theorem linkAt_start {s : State} (h0 : s.ctrl.mpc = 0) {pin : Fin 32} {status : Status} {q : SeqState} {r : Ser}
    (h : LinkAt pin none status q r) : LinkAt pin (position s) status q r := by
  rcases position_start h0 with hp | ⟨i, hp⟩ <;> rw [hp]
  · exact h
  · obtain ⟨hl1, hl0, hwcol, hquiet, -, -⟩ := h
    refine ⟨hl1, hl0, hwcol, fun hs => ?_, ?_, ?_⟩
    · have hawait : awaiting i 0 = false := by cases i <;> rfl
      simpa [hawait] using hquiet hs
    · rintro j k ⟨⟩ - hk
      exact absurd rfl hk
    · rintro d k ⟨⟩ hk
      exact absurd hk (by decide)

section Boot

variable {p : Setup} (d : Device) (h : p.params.Legal)
include h

theorem registersLegal_boot : RegistersLegal (State.boot p d) := by
  obtain ⟨hmamcr, hmamtim, hvpbdiv, hcon⟩ := h.reset.codes
  obtain ⟨hhold, hact⟩ := h.reset.pllcon
  refine ⟨hmamcr, hmamtim, hvpbdiv, .inl rfl, .inl rfl, ?_, ?_, h.accepts.pllcfg _, h.accepts.pllcfg _⟩
  · simpa [State.boot, Clk.reset, hhold] using hcon
  · simpa [State.boot, Clk.reset, hact] using hcon

theorem clockAt_boot : ClockAt none (State.boot p d).clk := by
  obtain ⟨hhold, hact⟩ := h.reset.pllcon
  obtain ⟨hlock, hfeed⟩ := h.reset.clockFlags
  simp [ClockAt, State.boot, Clk.reset, hhold, hact, hlock, hfeed, h.reset.pllcfg, h.reset.mamcr, SeqState.rank]

theorem linkAt_boot : LinkAt p.params.csPin none (State.boot p d).ctrl.status .s0Reset (State.boot p d).ser := by
  obtain ⟨hspif, hwcol, harmed, hbusy⟩ := h.reset.serialFlags
  simp [LinkAt, State.boot, Ser.reset, hspif, hwcol, harmed, hbusy]

theorem blockInv_boot : BlockInv (State.boot p d) := by
  have hrec : FaultRecorded (State.boot p d) := by
    simp only [FaultRecorded, State.boot, Ctrl.reset]
    split <;> decide
  exact ⟨h, registersLegal_boot d h, hrec, ctrlInv_start rfl, clockAt_start rfl (clockAt_boot d h),
    linkAt_start rfl (linkAt_boot d h), nofun⟩

end Boot

/-- Settles O55: nothing is in progress after reset, and legal parameters reset what the invariant names to off. -/
theorem blockInvAtReset : Obligations.BlockInvAtReset := by
  unfold Obligations.BlockInvAtReset
  exact ⟨Params.hardware_legal, fun p d h => ⟨blockInv_boot d h, Device.reset_wf d⟩⟩

end Sys2Proof.Machine

/-! PROOFS. The peripheral space (20_memory.md): which accesses reach a register (R71 to R73, R79), which writes have no
meaning (R83), and what the PLL's and the SHIFTER's own steps leave alone (R85; 41_serial.md R186, R189). -/

namespace Sys2Proof.Machine

/-! ### Which accesses reach a register (20_memory.md R71 to R73, R79) -/

theorem Profile.regAt_eq_none {P : Profile} {a : Nat} (h : ∀ r, P.addr r ≠ a) : P.regAt a = none := by
  simp [Profile.regAt, List.find?_eq_none, h]

/-- An access of another width, misaligned, beyond ADDR_BITS or at no register's address reaches none. -/
theorem not_aligned_or_unmapped {P : Profile} {addrBits a n : Nat}
    (h : n ≠ 4 ∨ a % 4 ≠ 0 ∨ 2 ^ addrBits ≤ a ∨ ∀ r, P.addr r ≠ a) :
    accessAligned addrBits a n = false ∨ P.regAt a = none := by
  rcases h with hwidth | halign | hbound | hmap
  · exact .inl (by simp [accessAligned, hwidth])
  · exact .inl (by simp [accessAligned, halign])
  · exact .inl (by simp [accessAligned, hbound])
  · exact .inr (Profile.regAt_eq_none hmap)

section Unreached

variable {a n : Nat} {s : State}
  (h : accessAligned s.setup.params.addrBits a n = false ∨ s.setup.params.profile.regAt a = none)
include h

theorem memRead_unreached : memRead a n s = .bad .unsupportedAccess s := by
  rcases h with h | h <;> simp [memRead, h]

theorem memWrite_unreached (v : Word) : memWrite a n v s = .bad .unsupportedAccess s := by
  rcases h with h | h <;> simp [memWrite, h]

end Unreached

/-- Settles O19: an access either fails the width, alignment and bound check or finds its register by the map. -/
theorem onlyMappedWordsAreAccessed : Obligations.OnlyMappedWordsAreAccessed := by
  unfold Obligations.OnlyMappedWordsAreAccessed
  refine ⟨fun a n v s h => ?_, fun r v s h => ⟨h.memRead_addr r, h.memWrite_addr r v⟩, by decide⟩
  have hunreached := not_aligned_or_unmapped h
  exact ⟨memRead_unreached hunreached, memWrite_unreached hunreached v⟩

/-! ### Writes without a meaning (20_memory.md R83) -/

/-- A write that its register does not accept is refused where it stands, and raises its code in a micro-step. -/
theorem Profile.Legal.write_refused {s : State} (h : s.setup.params.profile.Legal s.setup.params.addrBits) {r : Reg}
    {v : Word} (ha : r.accepts s.setup.params.profile v = false) :
    memWrite (s.setup.params.profile.addr r) 4 v s = .bad .unsupportedAccess s ∧
      ∀ k, microWrite r v k s = .next (s.raise .unsupportedAccess) := by
  have hwrite : memWrite (s.setup.params.profile.addr r) 4 v s = .bad .unsupportedAccess s := by
    simp [h.memWrite_addr, regWrite, ha]
  exact ⟨hwrite, fun k => by simp [microWrite, hwrite]⟩

/-- A set bit at place `k` or above makes the word 2 ^ k at least. -/
theorem two_pow_le_of_extractLsb'_ne_zero {v : Word} {k n : Nat} (h : v.extractLsb' k n ≠ 0) : 2 ^ k ≤ v.toNat := by
  by_contra hlt
  refine h (BitVec.eq_of_toNat_eq ?_)
  simp [Nat.shiftRight_eq_zero _ _ (Nat.lt_of_not_le hlt)]

section Refusals

variable {l : CodedLayout} {w : Nat} {v : Word} (hb : l.bits = List.range w)
include hb

theorem CodedLayout.refuses_reserved (hv : 2 ^ w ≤ v.toNat) : l.accepts w v = false := by
  simp [CodedLayout.accepts, RegLayout.clean_range hb, Nat.not_lt.mpr hv]

/-- A register in the word's low bits refuses a reserved bit, and a value that is no code. -/
theorem CodedLayout.refuses_range (hw : w ≤ 32) {n : Nat}
    (h : v.extractLsb' w n ≠ 0 ∨ l.codes.has (v.extractLsb' 0 w) = false) : l.accepts w v = false := by
  rcases h with hres | hcode
  · exact CodedLayout.refuses_reserved hb (two_pow_le_of_extractLsb'_ne_zero hres)
  · simp [CodedLayout.accepts, RegLayout.value_range hb hw, BitVec.setWidth_eq_extractLsb' hw, hcode]

end Refusals

/-- SPCR takes the one word of 10_state.md R37. -/
theorem lpc2000_refuses_spcr {v : Word} (hv : v ≠ 0x20) : Profile.lpc2000.spcr.accepts 8 v = false := by
  by_cases hlt : v.toNat < 2 ^ 8
  · have hne : v.toNat % 2 ^ 8 ≠ 32 := fun e => hv (BitVec.eq_of_toNat_eq (by rwa [Nat.mod_eq_of_lt hlt] at e))
    exact CodedLayout.refuses_range (n := 24) rfl (by decide) (.inr (by simpa [Profile.lpc2000, CodeSet.has] using hne))
  · exact CodedLayout.refuses_reserved rfl (Nat.le_of_not_lt hlt)

/-- SPCCR takes no odd value and none below 8 (10_state.md R38). -/
theorem lpc2000_spccr_not_code {v : Word} (h : v.getLsbD 0 = true ∨ v.toNat < 8) :
    Profile.lpc2000.spccr.codes.has (v.extractLsb' 0 8) = false := by
  have hcode : v.toNat % 2 = 1 ∨ v.toNat < 8 := by simpa [BitVec.getLsbD, Nat.testBit_zero] using h
  simp only [Profile.lpc2000, CodeSet.has, BitVec.extractLsb'_toNat, Nat.shiftRight_zero, Bool.and_eq_false_iff,
    decide_eq_false_iff_not, beq_eq_false_iff_ne]
  omega

/-- Settles O20: none of these writes is accepted, and a legal profile's address leads to the register. -/
theorem meaninglessWritesAreRefused : Obligations.MeaninglessWritesAreRefused := by
  unfold Obligations.MeaninglessWritesAreRefused
  intro r v s hP hb hr
  have ha : r.accepts Profile.lpc2000 v = false := by
    rcases hr with rfl | rfl | ⟨rfl, h⟩ | ⟨rfl, h⟩ | ⟨rfl, h⟩ | ⟨rfl, h⟩ | ⟨rfl, h⟩ | ⟨rfl, h⟩ | ⟨rfl, h⟩
    · rfl
    · rfl
    · exact CodedLayout.refuses_range rfl (by decide) (.inl h)
    · exact CodedLayout.refuses_range rfl (by decide) (.inl h)
    · exact CodedLayout.refuses_range rfl (by decide) (h.imp_right fun e => by rw [e]; decide)
    · exact CodedLayout.refuses_range rfl (by decide) (h.imp_right fun e => by rw [e]; decide)
    · exact CodedLayout.refuses_range rfl (by decide) (h.imp_right fun e => by rw [e]; decide)
    · exact lpc2000_refuses_spcr h
    · exact CodedLayout.refuses_range rfl (by decide) (h.imp_right lpc2000_spccr_not_code)
  rw [← hP] at ha ⊢
  exact (Profile.legal_of_lpc2000 hP hb).write_refused ha

/-! ### The hardware's own steps (20_memory.md R85; 41_serial.md R186, R189) -/

/-- Taking a value changes no register but the one it is for. -/
theorem echoTake_read_other (par : Params) (regs : Memory) {a b : Byte} (v : Half) (h : a ≠ b) :
    (echoTake par regs a v).read b = regs.read b := by
  rcases echoTake_regs par regs a v with e | ⟨u, e⟩ <;> rw [e]
  exact Memory.read_write_other regs u h

/-- An answer changes no register but the one a completed write frame names. -/
theorem echoAnswer_read_other (par : Params) (regs : Memory) {sent : List Byte} (tx : Byte) (n : Nat) {b : Byte}
    (h : ∀ hi, sent ≠ [par.sciWriteOp, b, hi]) : (echoAnswer par regs sent tx n).2.read b = regs.read b := by
  rcases echoAnswer_regs par regs sent tx n with e | ⟨a, hi, hsent, e⟩ <;> rw [e]
  refine echoTake_read_other par regs _ ?_
  rintro rfl
  exact h hi hsent

/-- The echo double stays one, and so do its registers but for the one of a completed write frame. -/
theorem Dev.answer_echo (par : Params) (regs : Memory) (trace : List Event) (tx : Byte) (cs : Bool) (n : Nat) :
    ∃ regs', (Dev.answer par (.echo regs) trace tx cs n).2 = .echo regs' ∧
      ∀ b, (∀ hi, sciInProgress trace ≠ some [par.sciWriteOp, b, hi]) → regs'.read b = regs.read b := by
  simp only [Dev.answer]
  split
  · next sent hsent =>
    refine ⟨_, rfl, fun b hb => echoAnswer_read_other par regs tx n fun hi e => hb hi ?_⟩
    rw [hsent, e]
  · exact ⟨_, rfl, fun _ _ => rfl⟩

/-- Settles O49: the two steps are what R160 and R186 write, and the echo double answers as `Dev.answer_echo` says. -/
theorem hardwareStepsFrame : Obligations.HardwareStepsFrame := by
  unfold Obligations.HardwareStepsFrame
  intro s
  refine ⟨rfl, ⟨_, _, _, rfl⟩, fun regs hdev => ?_⟩
  simp only [shifterStep, hdev]
  exact Dev.answer_echo _ regs _ _ _ _

end Sys2Proof.Machine

/-! PROOFS. The encodings (30_encoding.md): the decoder answers exactly for the encoder's words and bytes (R100 to
R113), what rejected words and pseudo-instructions come to (R107, R123, R124), and a frame goes out as its operation's
micro-steps, whole and with nothing beside it (41_serial.md R193 to R198). -/

namespace Sys2Proof.Machine

/-! ### Fields within fields (30_encoding.md R100 to R103) -/

/-- An extension word's bytes are those it was packed of (R103). -/
theorem wordByte_packWord (b0 b1 b2 b3 : Byte) :
    wordByte 0 (packWord b0 b1 b2 b3) = b0 ∧ wordByte 1 (packWord b0 b1 b2 b3) = b1 ∧
      wordByte 2 (packWord b0 b1 b2 b3) = b2 ∧ wordByte 3 (packWord b0 b1 b2 b3) = b3 := by
  unfold wordByte packWord
  refine ⟨?_, ?_, ?_, BitVec.extractLsb'_append_eq_right⟩
  · rw [BitVec.extractLsb'_append_eq_of_le (by decide), BitVec.extractLsb'_append_eq_of_le (by decide)]
    exact BitVec.extractLsb'_append_eq_left
  · rw [BitVec.extractLsb'_append_eq_of_le (by decide), BitVec.extractLsb'_append_eq_of_le (by decide)]
    exact BitVec.extractLsb'_append_eq_right
  · rw [BitVec.extractLsb'_append_eq_of_le (by decide)]
    exact BitVec.extractLsb'_append_eq_right

/-- An extension word is packed of its bytes (R103). -/
theorem packWord_wordByte (w : Word) : packWord (wordByte 0 w) (wordByte 1 w) (wordByte 2 w) (wordByte 3 w) = w := by
  unfold wordByte packWord
  rw [BitVec.extractLsb'_append_extractLsb'_eq_extractLsb' (by rfl),
    BitVec.extractLsb'_append_extractLsb'_eq_extractLsb' (by rfl),
    BitVec.extractLsb'_append_extractLsb'_eq_extractLsb' (by rfl)]
  exact BitVec.extractLsb'_eq_self

/-- A field is put together again from two parts of it. -/
theorem append_extractLsb' {n w : Nat} (x : BitVec (n + w)) : x.extractLsb' w n ++ x.extractLsb' 0 w = x := by
  rw [BitVec.extractLsb'_append_extractLsb'_eq_extractLsb' (Nat.zero_add w).symm]
  exact BitVec.extractLsb'_eq_self

/-- CLK_CONFIGURE's D field: PSEL above MSEL, zeros above both (R102). -/
theorem clkConfigure_fields (m : BitVec 5) (p : BitVec 2) :
    (0#9 ++ p ++ m : Half).extractLsb' 7 9 = 0#9 ∧ (0#9 ++ p ++ m : Half).extractLsb' 0 5 = m ∧
      (0#9 ++ p ++ m : Half).extractLsb' 5 2 = p := by
  refine ⟨?_, BitVec.extractLsb'_append_eq_right, ?_⟩
  · exact (BitVec.extractLsb'_append_eq_of_le (by decide)).trans BitVec.extractLsb'_append_eq_left
  · exact (BitVec.extractLsb'_append_eq_of_le (by decide)).trans BitVec.extractLsb'_append_eq_right

@[simp] theorem highByte_append (x y : Byte) : highByte (x ++ y) = x := BitVec.extractLsb'_append_eq_left

@[simp] theorem lowByte_append (x y : Byte) : lowByte (x ++ y) = y := BitVec.extractLsb'_append_eq_right

theorem highByte_append_lowByte (v : Half) : highByte v ++ lowByte v = v := append_extractLsb' (n := 8) (w := 8) v

/-! ### The decoder, operation by operation (R105) -/

section Opcodes

variable {w : Word} (rest : List Word)

theorem decode_clkConfigure (h : fieldOpc w = opcClkConfigure) :
    decode (w :: rest) = decodeClkConfigure w rest := by simp only [decode, h]; rfl

theorem decode_clkEnable (h : fieldOpc w = opcClkEnable) :
    decode (w :: rest) = decodePlain .clkEnable w rest := by simp only [decode, h]; rfl

theorem decode_clkAwaitLock (h : fieldOpc w = opcClkAwaitLock) :
    decode (w :: rest) = decodePlain .clkAwaitLock w rest := by simp only [decode, h]; rfl

theorem decode_clkSwitch (h : fieldOpc w = opcClkSwitch) :
    decode (w :: rest) = decodePlain .clkSwitch w rest := by simp only [decode, h]; rfl

theorem decode_clkTuneMem (h : fieldOpc w = opcClkTuneMem) :
    decode (w :: rest) = decodeClkTuneMem w rest := by simp only [decode, h]; rfl

theorem decode_busConfig (h : fieldOpc w = opcBusConfig) :
    decode (w :: rest) = decodeBusConfig w rest := by simp only [decode, h]; rfl

theorem decode_readRegister (h : fieldOpc w = opcReadRegister) :
    decode (w :: rest) = decodeReadRegister w rest := by simp only [decode, h]; rfl

theorem decode_writeRegister (h : fieldOpc w = opcWriteRegister) :
    decode (w :: rest) = .ok (.writeRegister (fieldA w) (fieldD w)) rest := by simp only [decode, h]; rfl

theorem decode_sendCommandSequence (h : fieldOpc w = opcSendCommandSequence) :
    decode (w :: rest) = decodeSendCommandSequence w rest := by simp only [decode, h]; rfl

end Opcodes

/-! ### Decoding what was encoded (R105, R108) -/

theorem decodePlain_hostWord (i : Instr) (opc : Byte) (rest : List Word) :
    decodePlain i (hostWord opc 0#8 0#16) rest = .ok i rest := by
  simp [decodePlain]

/-- The decoder finds the operation's own opcode, zeros where R101 and R102 ask for them, and the operands. -/
theorem decode_encodeHost {i : Instr} (hw : i.wellFormed = true) (ho : isOperation i = true) (rest : List Word) :
    decode (encodeHost i ++ rest) = .ok i rest := by
  have hopc := fieldOpc_hostWord
  cases i with
  | clkConfigure m p =>
    obtain ⟨hz, hm, hp⟩ := clkConfigure_fields m p
    exact (decode_clkConfigure rest (hopc ..)).trans (by simp [decodeClkConfigure, hz, hm, hp])
  | clkEnable => exact (decode_clkEnable rest (hopc ..)).trans (decodePlain_hostWord ..)
  | clkAwaitLock => exact (decode_clkAwaitLock rest (hopc ..)).trans (decodePlain_hostWord ..)
  | clkSwitch => exact (decode_clkSwitch rest (hopc ..)).trans (decodePlain_hostWord ..)
  | clkTuneMem n =>
    have hz : (0#5 ++ n : Byte).extractLsb' 3 5 = 0#5 := BitVec.extractLsb'_append_eq_left
    have hn : (0#5 ++ n : Byte).extractLsb' 0 3 = n := BitVec.extractLsb'_append_eq_right
    exact (decode_clkTuneMem rest (hopc ..)).trans (by simp [decodeClkTuneMem, hz, hn, hw])
  | busConfig d =>
    have hz : (0#8 ++ d : Half).extractLsb' 8 8 = 0#8 := BitVec.extractLsb'_append_eq_left
    have hd : (0#8 ++ d : Half).extractLsb' 0 8 = d := BitVec.extractLsb'_append_eq_right
    exact (decode_busConfig rest (hopc ..)).trans (by simp [decodeBusConfig, hz, hd, hw])
  | readRegister a => exact (decode_readRegister rest (hopc ..)).trans (by simp [decodeReadRegister])
  | writeRegister a v => exact (decode_writeRegister rest (hopc ..)).trans (by simp)
  | sendCommandSequence b0 b1 b2 b3 b4 b5 b6 b7 =>
    obtain ⟨h0, h1, h2, h3⟩ := wordByte_packWord b0 b1 b2 b3
    obtain ⟨h4, h5, h6, h7⟩ := wordByte_packWord b4 b5 b6 b7
    exact (decode_sendCommandSequence _ (hopc ..)).trans
      (by simp [decodeSendCommandSequence, h0, h1, h2, h3, h4, h5, h6, h7])
  | sciWriteFrame | sciReadFrame | sdiCommandFrame | sineTestCommand => exact absurd ho Bool.false_ne_true

/-! ### Encoding what was decoded (R106) -/

theorem eq_hostWord {w : Word} {opc a : Byte} {d : Half} (hopc : fieldOpc w = opc) (ha : fieldA w = a)
    (hd : fieldD w = d) : w = hostWord opc a d := by
  rw [← hopc, ← ha, ← hd, hostWord_fields]

section Encoded

variable {w : Word} {tail rest : List Word} {i : Instr}

theorem encodeHost_of_decodePlain {j : Instr} {opc : Byte} (hj : encodeHost j = [hostWord opc 0#8 0#16])
    (hopc : fieldOpc w = opc) (h : decodePlain j w tail = .ok i rest) : w :: tail = encodeHost i ++ rest := by
  unfold decodePlain at h
  split at h
  · next hz =>
    obtain ⟨ha, hd⟩ := hz
    cases h
    rw [hj]
    exact congrArg (· :: _) (eq_hostWord hopc ha hd)
  · cases h

theorem encodeHost_of_decodeClkConfigure (hopc : fieldOpc w = opcClkConfigure)
    (h : decodeClkConfigure w tail = .ok i rest) : w :: tail = encodeHost i ++ rest := by
  unfold decodeClkConfigure at h
  split at h
  · next hz =>
    obtain ⟨ha, hz⟩ := hz
    cases h
    have hd : fieldD w = 0#9 ++ (fieldD w).extractLsb' 5 2 ++ (fieldD w).extractLsb' 0 5 := by
      rw [← hz, BitVec.extractLsb'_append_extractLsb'_eq_extractLsb' (by rfl)]
      exact (append_extractLsb' (n := 11) (w := 5) (fieldD w)).symm
    exact congrArg (· :: _) (eq_hostWord hopc ha hd)
  · cases h

theorem encodeHost_of_decodeClkTuneMem (hopc : fieldOpc w = opcClkTuneMem)
    (h : decodeClkTuneMem w tail = .ok i rest) : w :: tail = encodeHost i ++ rest := by
  unfold decodeClkTuneMem at h
  split at h
  · next hz =>
    obtain ⟨hz, hd⟩ := hz
    dsimp only at h
    split at h <;> cases h
    have ha : fieldA w = 0#5 ++ (fieldA w).extractLsb' 0 3 := by
      rw [← hz]
      exact (append_extractLsb' (n := 5) (w := 3) (fieldA w)).symm
    exact congrArg (· :: _) (eq_hostWord hopc ha hd)
  · cases h

theorem encodeHost_of_decodeBusConfig (hopc : fieldOpc w = opcBusConfig)
    (h : decodeBusConfig w tail = .ok i rest) : w :: tail = encodeHost i ++ rest := by
  unfold decodeBusConfig at h
  split at h
  · next hz =>
    obtain ⟨ha, hz⟩ := hz
    dsimp only at h
    split at h <;> cases h
    have hd : fieldD w = 0#8 ++ (fieldD w).extractLsb' 0 8 := by
      rw [← hz]
      exact (append_extractLsb' (n := 8) (w := 8) (fieldD w)).symm
    exact congrArg (· :: _) (eq_hostWord hopc ha hd)
  · cases h

theorem encodeHost_of_decodeReadRegister (hopc : fieldOpc w = opcReadRegister)
    (h : decodeReadRegister w tail = .ok i rest) : w :: tail = encodeHost i ++ rest := by
  unfold decodeReadRegister at h
  split at h
  · next hd =>
    cases h
    exact congrArg (· :: _) (eq_hostWord hopc rfl hd)
  · cases h

theorem encodeHost_of_decodeSendCommandSequence (hopc : fieldOpc w = opcSendCommandSequence)
    (h : decodeSendCommandSequence w tail = .ok i rest) : w :: tail = encodeHost i ++ rest := by
  unfold decodeSendCommandSequence at h
  split at h
  · next hz =>
    obtain ⟨ha, hd⟩ := hz
    split at h <;> cases h
    simp only [encodeHost, packWord_wordByte, eq_hostWord hopc ha hd, List.cons_append, List.nil_append]
  · cases h

/-- Words are exactly the encoding of what they decode to, with the rest after it: a bit that R105's pattern does not
have is rejected, and every operand bit is kept. -/
theorem eq_encodeHost_of_decode {ws : List Word} (h : decode ws = .ok i rest) : ws = encodeHost i ++ rest := by
  cases ws with
  | nil => cases h
  | cons w tail =>
    simp only [decode] at h
    split_ifs at h with hopc hopc hopc hopc hopc hopc hopc hopc hopc
    · exact encodeHost_of_decodeClkConfigure hopc h
    · exact encodeHost_of_decodePlain rfl hopc h
    · exact encodeHost_of_decodePlain rfl hopc h
    · exact encodeHost_of_decodePlain rfl hopc h
    · exact encodeHost_of_decodeClkTuneMem hopc h
    · exact encodeHost_of_decodeBusConfig hopc h
    · exact encodeHost_of_decodeReadRegister hopc h
    · cases h
      exact congrArg (· :: _) (eq_hostWord hopc rfl rfl)
    · exact encodeHost_of_decodeSendCommandSequence hopc h

end Encoded

/-- What decodes is exactly a well-formed host operation's encoding (R105, R106, R108). -/
theorem decode_eq_ok_iff {ws rest : List Word} {i : Instr} :
    decode ws = .ok i rest ↔ i.wellFormed = true ∧ isOperation i = true ∧ ws = encodeHost i ++ rest := by
  constructor
  · intro h
    obtain ⟨hw, ho⟩ := decode_onlyOperations ws i rest h
    exact ⟨hw, ho, eq_encodeHost_of_decode h⟩
  · rintro ⟨hw, ho, rfl⟩
    exact decode_encodeHost hw ho rest

/-- A host operation's encoding is its words, whatever the parameters. -/
theorem encode_operation {i : Instr} (ho : isOperation i = true) (par : Params) :
    encode par i = .host (encodeHost i) := by
  cases i with
  | sciWriteFrame | sciReadFrame | sdiCommandFrame | sineTestCommand => exact absurd ho Bool.false_ne_true
  | _ => rfl

/-- Only a host operation has words. -/
theorem isOperation_of_encode {i : Instr} {par : Params} {ws : List Word} (h : encode par i = .host ws) :
    isOperation i = true := by
  cases i with
  | sciWriteFrame | sciReadFrame | sdiCommandFrame | sineTestCommand => cases h
  | _ => rfl

/-- Settles O3: the decoder's inversion, and a host operation's encoding does not name the parameters. -/
theorem decodedWordsAreTheEncoding : Obligations.DecodedWordsAreTheEncoding := by
  unfold Obligations.DecodedWordsAreTheEncoding
  intro ws rest i h
  obtain ⟨hw, ho, hws⟩ := decode_eq_ok_iff.mp h
  exact ⟨hw, ho, hws, encode_operation ho⟩

/-! ### Wire frames (R110 to R113) -/

/-- A frame's bytes are read as that frame where the SCI opcode bytes differ; the tone form is spelled by its own row
(log 15). -/
theorem decodeImage_encode_frame {par : Params} {i : Instr} (hw : i.wellFormed = true) (ho : isOperation i = false)
    (hpar : par.sciReadOp ≠ par.sciWriteOp) : decodeImage par (encode par i) = some i := by
  cases i with
  | sciWriteFrame a v => simp [encode, decodeImage, decodeWire, highByte_append_lowByte]
  | sciReadFrame a => simp [encode, decodeImage, decodeWire, hpar]
  | sdiCommandFrame b0 b1 b2 b3 b4 b5 b6 b7 =>
    have htone : isToneCommand b0 b1 b4 b5 b6 b7 = false := by simpa [Instr.wellFormed] using hw
    simp [encode, decodeImage, decodeWire, htone]
  | sineTestCommand p1 p2 => rfl
  | _ => cases ho

/-- Settles O2: a host operation's words decode with any words after them, and a frame's bytes are its own. -/
theorem decodeOfEncode : Obligations.DecodeOfEncode := by
  unfold Obligations.DecodeOfEncode
  intro par i hw
  refine ⟨fun hpar => ?_, fun ws rest h => ?_⟩
  · cases ho : isOperation i with
    | true =>
      have hdecode := decode_encodeHost hw ho []
      rw [List.append_nil] at hdecode
      simp [encode_operation ho, decodeImage, hdecode]
    | false => exact decodeImage_encode_frame hw ho hpar
  · have ho := isOperation_of_encode h
    rw [encode_operation ho] at h
    cases h
    exact decode_encodeHost hw ho rest

/-- Settles O4: each row's test of the bytes leaves nothing of its pattern free but the operands. -/
theorem decodedBytesAreTheFrame : Obligations.DecodedBytesAreTheFrame := by
  unfold Obligations.DecodedBytesAreTheFrame
  intro par cs bytes rest i h
  unfold decodeWire at h
  split at h
  · next op a x y =>
    split_ifs at h with hwrite hread
    · cases h
      exact ⟨rfl, rfl, by simp [encode, hwrite]⟩
    · obtain ⟨hop, hx, hy⟩ := hread
      cases h
      exact ⟨rfl, rfl, by simp [encode, hop, hx, hy]⟩
  · next b0 b1 b2 b3 b4 b5 b6 b7 =>
    split_ifs at h with htone
    · cases h
      refine ⟨rfl, rfl, ?_⟩
      simp only [isToneCommand, Bool.and_eq_true, beq_iff_eq] at htone
      obtain ⟨⟨⟨⟨⟨h0, h1⟩, h4⟩, h5⟩, h6⟩, h7⟩ := htone
      simp [encode, toneBytes, h0, h1, h4, h5, h6, h7]
    · cases h
      exact ⟨by simpa [Instr.wellFormed] using htone, rfl, rfl⟩
  · cases h

/-! ### Lengths (R104) -/

/-- A host operation is as many words as R104 gives its first word's OPC. -/
theorem encodeHost_length {i : Instr} (ho : isOperation i = true) :
    ∃ w ws, encodeHost i = w :: ws ∧ (encodeHost i).length = opLength (fieldOpc w) := by
  cases i with
  | clkConfigure m p => exact Laws.Length.clkConfigure m p Params.hardware
  | clkEnable => exact Laws.Length.clkEnable Params.hardware
  | clkAwaitLock => exact Laws.Length.clkAwaitLock Params.hardware
  | clkSwitch => exact Laws.Length.clkSwitch Params.hardware
  | clkTuneMem n => exact Laws.Length.clkTuneMem n Params.hardware
  | busConfig d => exact Laws.Length.busConfig d Params.hardware
  | readRegister a => exact Laws.Length.readRegister a Params.hardware
  | writeRegister a v => exact Laws.Length.writeRegister a v Params.hardware
  | sendCommandSequence b0 b1 b2 b3 b4 b5 b6 b7 =>
    exact Laws.Length.sendCommandSequence b0 b1 b2 b3 b4 b5 b6 b7 Params.hardware
  | sciWriteFrame | sciReadFrame | sdiCommandFrame | sineTestCommand => exact absurd ho Bool.false_ne_true

/-- Settles O5: the words are an operation's encoding, whose length its first word's OPC gives. -/
theorem lengthFollowsFromOpcode : Obligations.LengthFollowsFromOpcode := by
  unfold Obligations.LengthFollowsFromOpcode
  intro w rest after i h
  obtain ⟨-, ho, hws⟩ := decode_eq_ok_iff.mp h
  obtain ⟨w', ws, hcons, hlen⟩ := encodeHost_length ho
  obtain rfl : w = w' := by
    rw [hcons] at hws
    exact (List.cons.inj hws).1
  rw [hws, List.length_append, hlen]
  rfl

/-! ### Words that spell no operation (R107) -/

/-- Settles O6: no other agent could move, so CTRL does, and at such words it raises ILLEGAL_OP. -/
theorem illegalWordsFault : Obligations.IllegalWordsFault := by
  unfold Obligations.IllegalWordsFault
  intro s why hrun hw hd
  have hstep : agentStep .ctrl s = .next (stoppedBy .illegalOp s) := ctrlStep_of_reject hrun hd
  rw [step_of_mover (mover_eq_ctrl hrun (.inl hw)), hstep]

/-! ### The assembler (R122 to R124; 70_reset_and_hazards.md R263) -/

/-- An operand that came from a field fits it. -/
@[simp] theorem operand_toNat {w : Nat} (x : BitVec w) : operand w x.toNat = some x := by
  simp [operand, x.isLt]

/-- Settles O7: every operand fits its field and passes R108, and the boot program's words are evaluated. -/
theorem pseudoInstructionsAndBootProgram : Obligations.PseudoInstructionsAndBootProgram := by
  unfold Obligations.PseudoInstructionsAndBootProgram
  refine ⟨fun m p n hn => ?_, fun v => ?_, fun p1 p2 => ?_, by decide, by decide⟩
  · simpa [assemble, checkedAll, clkBringup, Instr.wellFormed] using hn
  · simp [assemble, checked, checkedAll, setMode, Instr.wellFormed]
  · simp [assemble, checked, checkedAll, sineTest, Instr.wellFormed]

/-! ### The micro-steps of a frame (41_serial.md R181, R190, R193 to R195) -/

/-- The clearing rule, field by field (41_serial.md R185). -/
theorem Ser.clearArmed_eq (r : Ser) :
    r.clearArmed = { r with spif := r.spif && !r.spifArmed, wcol := r.wcol && !r.spifArmed, spifArmed := false } := by
  obtain ⟨pinsel0, spcr, spccr, spdrTx, spdrRx, spif, wcol, armed, busy, iodir0, iolatch0, linkState⟩ := r
  cases armed <;> simp [Ser.clearArmed]

section MicroSteps

variable {i : Instr} {k : Nat} {micro : State → Out}

/-- Begun where the link is not ready, a meaning that requires it raises ORDER (41_serial.md R180). -/
theorem needsLink_of_operation (he : ∀ s, exec i s = operation i micro s) (hp : ∀ s, precondition i s = linkReady s) :
    NeedsLink i := by
  intro s h0 hlink
  have hready : precondition i s = false := by
    rw [hp, linkReady]
    rcases hlink with h | h <;> simp [h]
  rw [he, operation, hready]
  exact ordered_refused s _ h0

/-- A micro-step of a meaning whose order check it passes. -/
theorem exec_of_operation (he : ∀ s, exec i s = operation i micro s) {s : State}
    (hp : s.ctrl.mpc = 0 → precondition i s = true) : exec i s = micro s :=
  (he s).trans (ordered_ready s _ hp)

variable (he : ∀ s, exec i s = operation i micro s)
include he

theorem drivesCs_low {after : State → State}
    (hm : ∀ s : State, s.setup.params.Legal → s.ctrl.mpc = k → micro s = csLow after s) : DrivesCs i k false after :=
  fun s hl hk hb hp => by
    rw [exec_of_operation he fun h0 => hp (hk.symm.trans h0), hm s hl hk, csLow_eq hl after hb]
    rfl

theorem drivesCs_high {after : State → State}
    (hm : ∀ s : State, s.setup.params.Legal → s.ctrl.mpc = k → micro s = csHigh after s) : DrivesCs i k true after :=
  fun s hl hk hb hp => by
    rw [exec_of_operation he fun h0 => hp (hk.symm.trans h0), hm s hl hk, csHigh_eq hl after hb]
    rfl

theorem queuesByte_of {b : Params → Byte} (hk0 : k ≠ 0)
    (hm : ∀ s : State, s.setup.params.Legal → s.ctrl.mpc = k → micro s = xferSend (b s.setup.params) s) :
    QueuesByte i k b :=
  fun s hl hk hb => by
    rw [exec_of_operation he fun h0 => absurd (hk.symm.trans h0) hk0, hm s hl hk, xferSend_eq hl _ hb,
      Ser.clearArmed_eq]
    rfl

theorem awaitsByte_of (hk0 : k ≠ 0)
    (hm : ∀ s : State, s.setup.params.Legal → s.ctrl.mpc = k → micro s = xferAwait s) : AwaitsByte i k :=
  fun s hl hk => by
    rw [exec_of_operation he fun h0 => absurd (hk.symm.trans h0) hk0, hm s hl hk, xferAwait_eq hl,
      pollFailed_eq_afterFailedRead]
    rfl

theorem capturesByte_of {dst : Byte → State → State} {dst' : Byte → Ctrl → Ctrl} (hk0 : k ≠ 0)
    (hd : ∀ b s, (dst b s).advance = { s with ctrl := dst' b s.ctrl.next })
    (hm : ∀ s : State, s.setup.params.Legal → s.ctrl.mpc = k → micro s = xferCapture dst s) : CapturesByte i k dst' :=
  fun s hl hk => by
    rw [exec_of_operation he fun h0 => absurd (hk.symm.trans h0) hk0, hm s hl hk, xferCapture_eq hl, hd,
      Ser.clearArmed_eq]
    rfl

end MicroSteps

/-! #### The frames by the operations that emit them (30_encoding.md R110 to R113, log 13) -/

section Carriers

variable {i : Instr}

theorem precondition_of_sendsFrame (hi : sendsFrame i = true) (s : State) : precondition i s = linkReady s := by
  cases i with
  | clkConfigure | clkEnable | clkAwaitLock | clkSwitch | clkTuneMem | busConfig => cases hi
  | _ => rfl

theorem microSteps_carrier (i : Instr) : microSteps (carrier i) = microSteps i := by cases i <;> rfl

theorem exec_of_carrier_readRegister {a : Byte} (hc : carrier i = .readRegister a) (s : State) :
    exec i s = operation i (sciRead a) s := by
  cases i with
  | readRegister | sciReadFrame =>
    cases hc
    rfl
  | _ => cases hc

theorem exec_of_carrier_writeRegister {a : Byte} {v : Half} (hc : carrier i = .writeRegister a v) (s : State) :
    exec i s = operation i (sciWrite a v) s := by
  cases i with
  | writeRegister | sciWriteFrame =>
    cases hc
    rfl
  | _ => cases hc

theorem exec_of_carrier_sendCommandSequence {b0 b1 b2 b3 b4 b5 b6 b7 : Byte}
    (hc : carrier i = .sendCommandSequence b0 b1 b2 b3 b4 b5 b6 b7) (s : State) :
    exec i s = operation i (sdiSend [b0, b1, b2, b3, b4, b5, b6, b7]) s := by
  cases i with
  | sendCommandSequence | sdiCommandFrame | sineTestCommand =>
    cases hc
    rfl
  | _ => cases hc

/-- READ_REGISTER and SCI_READ_FRAME run as the twelve micro-steps of R193. -/
theorem readSteps_of_carrier {a : Byte} (hc : carrier i = .readRegister a) : ReadSteps a i := by
  have he := exec_of_carrier_readRegister hc
  have hp := precondition_of_sendsFrame (i := i) (by rw [sendsFrame, hc])
  have hsend (k : Nat) {b : Params → Byte} := queuesByte_of (k := k) (b := b) he
  have hawait (k : Nat) := awaitsByte_of (k := k) he
  refine ⟨needsLink_of_operation he hp, drivesCs_low he ?_, hsend 1 (by decide) ?_, hawait 2 (by decide) ?_,
    hsend 3 (by decide) ?_, hawait 4 (by decide) ?_, hsend 5 (by decide) ?_, hawait 6 (by decide) ?_,
    capturesByte_of he (dst := State.setHi) (by decide) (fun _ _ => rfl) ?_, hsend 8 (by decide) ?_,
    hawait 9 (by decide) ?_, capturesByte_of he (dst := State.setLo) (by decide) (fun _ _ => rfl) ?_,
    drivesCs_high he ?_⟩
  all_goals
    intro s _ hk
    rw [sciRead, hk]
    rfl

/-- A frame that captures nothing queues byte `k` at mpc 2k + 1 and awaits it at mpc 2k + 2 (41_serial.md R194,
R195). -/
theorem queues_awaits_of_sendFrame {micro assert release : State → Out}
    (he : ∀ s, exec i s = operation i micro s) (frame : Params → List Byte)
    (hm : ∀ s, micro s = sendFrame assert release (frame s.setup.params) s) {k : Nat} {b : Params → Byte}
    (hb : ∀ par : Params, par.Legal → (frame par)[k]? = some (b par)) :
    QueuesByte i (2 * k + 1) b ∧ AwaitsByte i (2 * k + 2) :=
  ⟨queuesByte_of he (by omega) fun s hl hk => (hm s).trans (sendFrame_send hk (hb _ hl)),
    awaitsByte_of he (by omega) fun s hl hk => (hm s).trans (sendFrame_await hk (hb _ hl))⟩

/-- WRITE_REGISTER and SCI_WRITE_FRAME run as the ten micro-steps of R194. -/
theorem writeSteps_of_carrier {a : Byte} {v : Half} (hc : carrier i = .writeRegister a v) : WriteSteps a v i := by
  have he := exec_of_carrier_writeRegister hc
  have hp := precondition_of_sendsFrame (i := i) (by rw [sendsFrame, hc])
  have hbyte {k : Nat} {b : Params → Byte} :=
    queues_awaits_of_sendFrame (k := k) (b := b) he (sciWriteBytes · a v) fun _ => rfl
  obtain ⟨hq1, ha2⟩ := hbyte (k := 0) (b := Params.sciWriteOp) fun _ _ => rfl
  obtain ⟨hq3, ha4⟩ := hbyte (k := 1) (b := fun _ => a) fun _ _ => rfl
  obtain ⟨hq5, ha6⟩ := hbyte (k := 2) (b := fun _ => highByte v) fun _ _ => rfl
  obtain ⟨hq7, ha8⟩ := hbyte (k := 3) (b := fun _ => lowByte v) fun _ _ => rfl
  exact ⟨needsLink_of_operation he hp, drivesCs_low he fun _ _ hk => sendFrame_assert hk, hq1, ha2, hq3, ha4, hq5, ha6,
    hq7, ha8, drivesCs_high he fun _ _ hk => sendFrame_release hk⟩

/-- SEND_COMMAND_SEQUENCE and the SDI frames run as the eighteen micro-steps of R195. -/
theorem sendSteps_of_carrier {b0 b1 b2 b3 b4 b5 b6 b7 : Byte}
    (hc : carrier i = .sendCommandSequence b0 b1 b2 b3 b4 b5 b6 b7) :
    SendSteps [b0, b1, b2, b3, b4, b5, b6, b7] i := by
  have he := exec_of_carrier_sendCommandSequence hc
  have hp := precondition_of_sendsFrame (i := i) (by rw [sendsFrame, hc])
  refine ⟨needsLink_of_operation he hp, drivesCs_high he fun _ _ hk => sendFrame_assert hk, fun k b hb => ?_,
    drivesCs_low he fun _ hl hk => sendFrame_release (by rw [hk, sdiBytes_eq hl]; rfl)⟩
  exact queues_awaits_of_sendFrame he (sdiBytes · [b0, b1, b2, b3, b4, b5, b6, b7]) (fun _ => rfl) fun _ hl => by
    rw [sdiBytes_eq hl, hb]

end Carriers

/-- Settles O42: each frame's carrier has the frame's micro-steps. -/
theorem wireFrameEffects : Obligations.WireFrameEffects := by
  unfold Obligations.WireFrameEffects
  exact ⟨fun _ _ => writeSteps_of_carrier rfl, fun _ => readSteps_of_carrier rfl,
    fun _ _ _ _ _ _ _ _ => sendSteps_of_carrier rfl, fun _ _ => sendSteps_of_carrier rfl⟩

/-! ### Stretches of a frame (41_serial.md R196, R198) -/

theorem linkRun_succ {i : Instr} {s u : State} (h : exec i s = .next u) (n : Nat) :
    linkRun i (n + 1) s = linkRun i n (deliver u) := by
  simp [linkRun, h]

theorem linkRun_add {i : Instr} {m : Nat} {s t : State} (h : linkRun i m s = .next t) (n : Nat) :
    linkRun i (m + n) s = linkRun i n t := by
  induction m generalizing s with
  | zero =>
    cases h
    rw [Nat.zero_add]
  | succ m ih =>
    cases he : exec i s with
    | next u =>
      rw [linkRun_succ he] at h
      rw [Nat.succ_add, linkRun_succ he, ih h]
    | fault | refused => simp [linkRun, he] at h

/-- Where no transfer is in flight none completes. -/
theorem deliver_of_idle {s : State} (h : s.ser.busy = false) : deliver s = s := by
  simp [deliver, shifterEnabled, h]

/-- A transfer in flight completes where the port is master (41_serial.md R186). -/
theorem deliver_of_busy {s : State} (h : s.ser.busy = true) (hm : s.ser.spcr.getLsbD 5 = true) :
    deliver s = shifterStep s := by
  rw [deliver, if_pos (by rw [shifterEnabled, h, hm]; rfl)]

/-- A micro-step that leaves no transfer in flight. -/
theorem linkRun_one_of_idle {i : Instr} {s t : State} (h : exec i s = .next t) (ht : t.ser.busy = false) :
    linkRun i 1 s = .next t :=
  (linkRun_succ h 0).trans (congrArg _ (deliver_of_idle ht))

/-- What the micro-steps of a frame need of the link: legal parameters, a master port and no transfer in flight. -/
structure LinkIdle (s : State) : Prop where
  legal : s.setup.params.Legal
  master : s.ser.spcr.getLsbD 5 = true
  idle : s.ser.busy = false

/-- What `n` micro-steps inside a frame do, from `s` to `t`: the bytes `tx` cross the wire for the bytes `rx`, with
chip-select where it was, and the link is idle again. -/
structure Carries (n : Nat) (tx rx : List Byte) (s t : State) : Prop where
  link : LinkIdle t
  mpc : t.ctrl.mpc = s.ctrl.mpc + n
  opPc : t.ctrl.opPc = s.ctrl.opPc
  setup : t.setup = s.setup
  fault : t.env.fault = s.env.fault
  latch : t.ser.iolatch0 = s.ser.iolatch0
  received : rx.length = tx.length
  trace : t.env.trace = s.env.trace ++ exchanges tx rx s.csLatch s.ctrl.opPc

theorem Carries.csLatch {n : Nat} {tx rx : List Byte} {s t : State} (h : Carries n tx rx s t) :
    t.csLatch = s.csLatch := by
  rw [State.csLatch, h.setup, h.latch, State.csLatch]

theorem Carries.trans {m n : Nat} {tx rx tx' rx' : List Byte} {s u t : State} (h : Carries m tx rx s u)
    (h' : Carries n tx' rx' u t) : Carries (m + n) (tx ++ tx') (rx ++ rx') s t where
  link := h'.link
  mpc := by rw [h'.mpc, h.mpc, Nat.add_assoc]
  opPc := h'.opPc.trans h.opPc
  setup := h'.setup.trans h.setup
  fault := h'.fault.trans h.fault
  latch := h'.latch.trans h.latch
  received := by rw [List.length_append, List.length_append, h.received, h'.received]
  trace := by
    rw [h'.trace, h.trace, h.csLatch, h.opPc, List.append_assoc]
    exact congrArg _ (List.zipWith_append h.received.symm).symm

/-- From micro-step `k` on, `n` micro-steps of `i` carry the bytes `tx` that the parameters give. -/
def Transfers (i : Instr) (k n : Nat) (tx : Params → List Byte) : Prop :=
  ∀ s, LinkIdle s → s.ctrl.mpc = k → ∃ t rx, linkRun i n s = .next t ∧ Carries n (tx s.setup.params) rx s t

/-- The state that XFER.x0 of the byte `b` leaves (41_serial.md R182, R185). -/
def afterQueue (b : Byte) (s : State) : State :=
  { s with
    ctrl := s.ctrl.next
    clk := { s.clk with feedState := .idle }
    ser := { s.ser with
      spif := s.ser.spif && !s.ser.spifArmed
      wcol := s.ser.wcol && !s.ser.spifArmed
      spifArmed := false
      spdrTx := b
      busy := true } }

/-- The state once the byte `b`, queued in `s`, has crossed the wire (41_serial.md R186). -/
def afterExchange (b : Byte) (s : State) : State := shifterStep (afterQueue b s)

/-- The state that XFER.x1 leaves when it reads SPIF 1 (41_serial.md R181, R184). -/
def afterSuccess (s : State) : State :=
  { afterSpsrRead s with ctrl := { (afterSpsrRead s).ctrl with pollCount := 0, mpc := s.ctrl.mpc + 1 } }

section Transfers

variable {i : Instr} {k m n : Nat} {tx tx' : Params → List Byte}

/-- One stretch after another. -/
theorem Transfers.append (h : Transfers i k m tx) (h' : Transfers i (k + m) n tx') :
    Transfers i k (m + n) (fun par => tx par ++ tx' par) := by
  intro s hs hk
  obtain ⟨u, rx, hrun, hu⟩ := h s hs hk
  obtain ⟨t, rx', hrun', ht⟩ := h' u hu.link (hu.mpc.trans (congrArg (· + m) hk))
  rw [hu.setup] at ht
  exact ⟨t, rx ++ rx', (linkRun_add hrun n).trans hrun', hu.trans ht⟩

/-- XFER.x0 and XFER.x1 with the transfer completing in between put one byte on the wire (41_serial.md R181, R186). -/
theorem transfers_byte {b : Params → Byte} (hq : QueuesByte i k b) (ha : AwaitsByte i (k + 1)) :
    Transfers i k 2 (fun par => [b par]) := by
  intro s h hk
  have hqueue : linkRun i 1 s = .next (afterExchange (b s.setup.params) s) :=
    (linkRun_succ (hq s h.legal hk h.idle) 0).trans (congrArg _ (deliver_of_busy rfl h.master))
  have hawait : linkRun i 1 (afterExchange (b s.setup.params) s) =
      .next (afterSuccess (afterExchange (b s.setup.params) s)) :=
    linkRun_one_of_idle (ha (afterExchange _ s) h.legal (congrArg (· + 1) hk)) rfl
  exact ⟨_, [(afterExchange (b s.setup.params) s).ser.spdrRx], (linkRun_add hqueue 1).trans hawait,
    ⟨h.legal, h.master, rfl⟩, rfl, rfl, rfl, rfl, rfl, rfl, rfl⟩

/-- XFER.x2 exchanges nothing (41_serial.md R181). -/
theorem transfers_capture {dst : Byte → Ctrl → Ctrl} (hc : CapturesByte i k dst)
    (hd : ∀ b c, (dst b c).mpc = c.mpc ∧ (dst b c).opPc = c.opPc) : Transfers i k 1 (fun _ => []) := by
  intro s h hk
  obtain ⟨hmpc, hopPc⟩ := hd s.ser.spdrRx _
  exact ⟨_, [], linkRun_one_of_idle (hc s h.legal hk) h.idle, ⟨h.legal, h.master, h.idle⟩, hmpc, hopPc, rfl, rfl, rfl,
    rfl, (List.append_nil _).symm⟩

/-- From micro-step `k` on, each byte is queued and awaited in turn. -/
def SendsBytes (i : Instr) : Nat → List (Params → Byte) → Prop
  | _, [] => True
  | k, b :: bs => QueuesByte i k b ∧ AwaitsByte i (k + 1) ∧ SendsBytes i (k + 2) bs

theorem transfers_bytes {bs : List (Params → Byte)} (hs : SendsBytes i k bs) :
    Transfers i k (2 * bs.length) (fun par => bs.map (· par)) := by
  induction bs generalizing k with
  | nil => exact fun s h _ => ⟨s, [], rfl, h, rfl, rfl, rfl, rfl, rfl, rfl, (List.append_nil _).symm⟩
  | cons b bs ih =>
    obtain ⟨hq, ha, hs⟩ := hs
    have happend := (transfers_byte hq ha).append (ih hs)
    rwa [Nat.add_comm, ← Nat.mul_succ] at happend

/-- The micro-steps of a command sequence, byte after byte (41_serial.md R195). -/
theorem sendsBytes_of_getElem? {bytes : List Byte}
    (h : ∀ j b, bytes[j]? = some b → QueuesByte i (2 * j + k) (fun _ => b) ∧ AwaitsByte i (2 * j + k + 1)) :
    SendsBytes i k (bytes.map fun b _ => b) := by
  induction bytes generalizing k with
  | nil => trivial
  | cons b bytes ih =>
    obtain ⟨hq, ha⟩ := h 0 b rfl
    rw [Nat.mul_zero, Nat.zero_add] at hq ha
    refine ⟨hq, ha, ih fun j c hc => ?_⟩
    have hnext := h (j + 1) c hc
    rwa [show 2 * (j + 1) + k = 2 * j + (k + 2) by omega] at hnext

end Transfers

/-! ### Whole frames (20_memory.md R76, 41_serial.md R198) -/

/-- Chip-select driven to `level` with its event (41_serial.md R190). -/
def drivenCs (level : Bool) (s : State) : State :=
  { s with
    clk := { s.clk with feedState := .idle }
    ser := { s.ser with iolatch0 :=
      if level then s.ser.iolatch0 ||| csm s.setup.params.csPin
      else s.ser.iolatch0 &&& ~~~csm s.setup.params.csPin }
    env := { s.env with trace := s.env.trace ++ [.cs level s.ctrl.opPc] } }

@[simp] theorem csLatch_drivenCs (level : Bool) (s : State) : (drivenCs level s).csLatch = level := by
  cases level
  · exact csBit_and_not_csm _ _
  · exact csBit_or_csm _ _

/-- `after` ends an operation of `len` words and leaves the wire alone. -/
def EndsOperation (len : Nat) (after : State → State) : Prop :=
  ∀ u : State, (after u).ctrl.opPc = u.ctrl.opPc + len ∧ (after u).ctrl.mpc = 0 ∧ (after u).ser = u.ser ∧
    (after u).setup = u.setup ∧ (after u).env.trace = u.env.trace ∧ (after u).env.fault = u.env.fault

theorem endsOperation_atEnd (n : Nat) : EndsOperation n (atEnd n) := fun _ => ⟨rfl, rfl, rfl, rfl, rfl, rfl⟩

/-- Run from `s` with each transfer completing as it starts, `i` puts its frame on the wire and ends. -/
def PutsFrame (i : Instr) (s : State) : Prop :=
  ∃ t rx, linkRun i (microSteps i) s = .next t ∧ rx.length = (frameBytes s.setup.params i).length ∧
    t.env.trace = s.env.trace ++ wholeFrame s.setup.params i rx s.ctrl.opPc ∧
    t.ctrl.opPc = s.ctrl.opPc + opWords i ∧ t.ctrl.mpc = 0 ∧ t.ser.busy = false ∧
    t.env.fault = s.env.fault ∧ t.csLatch = !frameCs i

section Frames

variable {i : Instr} {s : State} (h : LinkIdle s) (h0 : s.ctrl.mpc = 0) (hp : precondition i s = true)
include h h0 hp

/-- A frame is its select-assert, the stretch that carries its bytes, and its select-deassert. -/
theorem putsFrame_of_transfers {m : Nat} {tx : Params → List Byte} {after : State → State} (hm : microSteps i = m + 2)
    (htx : frameBytes s.setup.params i = tx s.setup.params) (hassert : DrivesCs i 0 (frameCs i) nextMicroStep)
    (hbody : Transfers i 1 m tx) (hrelease : DrivesCs i (m + 1) (!frameCs i) after)
    (hafter : EndsOperation (opWords i) after) : PutsFrame i s := by
  have hbegin : linkRun i 1 s = .next (nextMicroStep (drivenCs (frameCs i) s)) :=
    linkRun_one_of_idle (hassert s h.legal h0 h.idle fun _ => hp) h.idle
  obtain ⟨u, rx, hrun, hu⟩ :=
    hbody (nextMicroStep (drivenCs (frameCs i) s)) ⟨h.legal, h.master, h.idle⟩ (congrArg (· + 1) h0)
  have hmpc : u.ctrl.mpc = m + 1 := hu.mpc.trans ((congrArg (· + 1 + m) h0).trans (by omega))
  have hopPc : u.ctrl.opPc = s.ctrl.opPc := hu.opPc
  have hcs : (nextMicroStep (drivenCs (frameCs i) s)).csLatch = frameCs i := csLatch_drivenCs _ s
  have hbytes : u.env.trace = s.env.trace ++ [.cs (frameCs i) s.ctrl.opPc] ++
      exchanges (tx s.setup.params) rx (frameCs i) s.ctrl.opPc := hu.trace.trans (by rw [hcs]; rfl)
  obtain ⟨hpc, hmpc', hser, hsetup, htrace, hfault⟩ := hafter (drivenCs (!frameCs i) u)
  have hbusy : (after (drivenCs (!frameCs i) u)).ser.busy = false := (congrArg Ser.busy hser).trans hu.link.idle
  have hend : linkRun i 1 u = .next (after (drivenCs (!frameCs i) u)) :=
    linkRun_one_of_idle (hrelease u hu.link.legal hmpc hu.link.idle fun hz => absurd hz (Nat.succ_ne_zero m)) hbusy
  refine ⟨after (drivenCs (!frameCs i) u), rx, ?run, by rw [hu.received, htx]; rfl, ?trace, ?opPc, hmpc', hbusy,
    hfault.trans hu.fault, ?level⟩
  case run => rw [hm, show m + 2 = 1 + (m + 1) by omega, linkRun_add hbegin, linkRun_add hrun, hend]
  case trace =>
    have hlast : (drivenCs (!frameCs i) u).env.trace = u.env.trace ++ [.cs (!frameCs i) u.ctrl.opPc] := rfl
    simp [htrace, hlast, hbytes, hopPc, wholeFrame, htx]
  case opPc => exact hpc.trans (congrArg (· + opWords i) hopPc)
  case level =>
    rw [State.csLatch, hsetup, hser]
    exact csLatch_drivenCs _ u

theorem putsFrame_of_readRegister {a : Byte} (hc : carrier i = .readRegister a) : PutsFrame i s := by
  obtain ⟨-, hassert, hq1, ha2, hq3, ha4, hq5, ha6, hc7, hq8, ha9, hc10, hrelease⟩ := readSteps_of_carrier hc
  have hcs : frameCs i = false := by rw [frameCs, hc]
  have hwords : opWords i = 1 := by rw [opWords, hostWords, hc]; rfl
  have hsends : SendsBytes i 1 [Params.sciReadOp, fun _ => a, Params.dummyByte] :=
    ⟨hq1, ha2, hq3, ha4, hq5, ha6, trivial⟩
  have hbody := (((transfers_bytes hsends).append (transfers_capture hc7 fun _ _ => ⟨rfl, rfl⟩)).append
    (transfers_byte hq8 ha9)).append (transfers_capture hc10 fun _ _ => ⟨rfl, rfl⟩)
  refine putsFrame_of_transfers h h0 hp ?_ ?_ (by rwa [hcs]) hbody (by rwa [hcs]) ?_
  · rw [← microSteps_carrier, hc]
    rfl
  · rw [frameBytes, hc]
    rfl
  · rw [hwords]
    exact fun _ => ⟨rfl, rfl, rfl, rfl, rfl, rfl⟩

theorem putsFrame_of_writeRegister {a : Byte} {v : Half} (hc : carrier i = .writeRegister a v) : PutsFrame i s := by
  obtain ⟨-, hassert, hq1, ha2, hq3, ha4, hq5, ha6, hq7, ha8, hrelease⟩ := writeSteps_of_carrier hc
  have hcs : frameCs i = false := by rw [frameCs, hc]
  have hwords : opWords i = 1 := by rw [opWords, hostWords, hc]; rfl
  have hsends : SendsBytes i 1 [Params.sciWriteOp, fun _ => a, fun _ => highByte v, fun _ => lowByte v] :=
    ⟨hq1, ha2, hq3, ha4, hq5, ha6, hq7, ha8, trivial⟩
  refine putsFrame_of_transfers h h0 hp ?_ ?_ (by rwa [hcs]) (transfers_bytes hsends) (by rwa [hcs])
    (by rw [hwords]; exact endsOperation_atEnd 1)
  · rw [← microSteps_carrier, hc]
    rfl
  · rw [frameBytes, hc]
    rfl

theorem putsFrame_of_sendCommandSequence {b0 b1 b2 b3 b4 b5 b6 b7 : Byte}
    (hc : carrier i = .sendCommandSequence b0 b1 b2 b3 b4 b5 b6 b7) : PutsFrame i s := by
  obtain ⟨-, hassert, hsteps, hrelease⟩ := sendSteps_of_carrier hc
  have hcs : frameCs i = true := by rw [frameCs, hc]
  have hwords : opWords i = 3 := by rw [opWords, hostWords, hc]; rfl
  have hsends : SendsBytes i 1 ([b0, b1, b2, b3, b4, b5, b6, b7].map fun b _ => b) := sendsBytes_of_getElem? hsteps
  refine putsFrame_of_transfers h h0 hp ?_ ?_ (by rwa [hcs]) (transfers_bytes hsends) (by rwa [hcs])
    (by rw [hwords]; exact endsOperation_atEnd 3)
  · rw [← microSteps_carrier, hc]
    rfl
  · rw [frameBytes, hc]
    exact sdiBytes_eq h.legal ..

end Frames

/-- Settles O43: what sends a frame has one of the three transfer operations for its carrier. -/
theorem wholeFrameOnTheWire : Obligations.WholeFrameOnTheWire := by
  unfold Obligations.WholeFrameOnTheWire
  intro i s hl hi h0 hb hmaster hp
  have hidle : LinkIdle s := ⟨hl, hmaster, hb⟩
  unfold sendsFrame at hi
  split at hi
  · next hc => exact putsFrame_of_readRegister hidle h0 hp hc
  · next hc => exact putsFrame_of_writeRegister hidle h0 hp hc
  · next hc => exact putsFrame_of_sendCommandSequence hidle h0 hp hc
  · cases hi

end Sys2Proof.Machine

/-! PROOFS. The clock (40_clock.md): the order check (R140) and the five operations one micro-step at a time (R142 to
R146), what they leave alone, the feed and PLOCK (R147 to R152, R160), and the frequencies (R162). Then the machine's
invariant, kept by every step (section 5), and the wait for lock (R161). -/

namespace Sys2Proof.Machine

/-! ### The order check (40_clock.md R140, 41_serial.md R180) -/

/-- Every meaning has the template's shape (00_scope.md R12). -/
theorem exec_eq_operation (i : Instr) : ∃ micro, ∀ s, exec i s = operation i micro s := by
  cases i <;> exact ⟨_, fun _ => rfl⟩

/-- Settles O30: every meaning begins with its order check. -/
theorem outOfOrderFaults : Obligations.OutOfOrderFaults := by
  unfold Obligations.OutOfOrderFaults
  intro i s h0 hp
  obtain ⟨micro, he⟩ := exec_eq_operation i
  rw [he, operation, hp]
  exact ordered_refused s _ h0

/-! ### The clock operations, one micro-step at a time (40_clock.md R142 to R146) -/

/-- The operation's micro-steps 1 and 2 are FEED, whose commit ends it in the sequencer state `q` (40_clock.md R141). -/
structure EndsInFeed (i : Instr) (q : SeqState) : Prop where
  first : ∀ s : State, s.setup.params.Legal → s.ctrl.mpc = 1 →
    exec i s = .next (nextMicroStep { s with clk := { s.clk with feedState := .armed } })
  second : ∀ s : State, s.setup.params.Legal → s.ctrl.mpc = 2 →
    exec i s = .next (atEnd 1 { s with clk :=
      { (if s.clk.feedState = .armed then s.clk.commit else s.clk) with feedState := .idle, seqState := q } })

theorem endsInFeed_of_operation {i : Instr} {q : SeqState} {micro : State → Out}
    (he : ∀ s, exec i s = operation i micro s) (h1 : ∀ s : State, s.ctrl.mpc = 1 → micro s = feedFirst s)
    (h2 : ∀ s : State, s.ctrl.mpc = 2 → micro s = feedSecond (State.finishClock q) s) : EndsInFeed i q where
  first s hl hm := by
    rw [exec_of_operation he (by simp [hm]), h1 s hm, feedFirst_eq hl]
    rfl
  second s hl hm := by
    rw [exec_of_operation he (by simp [hm]), h2 s hm, feedSecond_eq hl]
    split <;> rfl

theorem clkConfigure_endsInFeed (m : BitVec 5) (p : BitVec 2) : EndsInFeed (.clkConfigure m p) .s1Configured :=
  endsInFeed_of_operation (fun _ => rfl) (fun _ hm => by simp [hm]) (fun _ hm => by simp [hm])

theorem clkEnable_endsInFeed : EndsInFeed .clkEnable .s2Enabled :=
  endsInFeed_of_operation (fun _ => rfl) (fun _ hm => by simp [hm]) (fun _ hm => by simp [hm])

theorem clkSwitch_endsInFeed : EndsInFeed .clkSwitch .s4Switched :=
  endsInFeed_of_operation (fun _ => rfl) (fun _ hm => by simp [hm]) (fun _ hm => by simp [hm])

theorem ctrlRun_succ {i : Instr} {s u : State} (h : exec i s = .next u) (n : Nat) :
    ctrlRun i (n + 1) s = ctrlRun i n u := by
  simp [ctrlRun, h]

/-- Begun with a write that leaves the clock unit `c`, the three micro-steps commit `c` (40_clock.md R149). -/
theorem EndsInFeed.ctrlRun_three {i : Instr} {q : SeqState} (hi : EndsInFeed i q) {s : State} {c : Clk}
    (hl : s.setup.params.Legal) (h0 : s.ctrl.mpc = 0) (hw : exec i s = .next (nextMicroStep { s with clk := c })) :
    ∃ t, ctrlRun i 3 s = .next t ∧ t.clk = { c.commit with feedState := .idle, seqState := q } ∧
      t.ctrl.opPc = s.ctrl.opPc + 1 ∧ t.ctrl.mpc = 0 := by
  have h1 := hi.first (nextMicroStep { s with clk := c }) hl (congrArg (· + 1) h0)
  have h2 := hi.second (nextMicroStep { nextMicroStep { s with clk := c } with clk := { c with feedState := .armed } })
    hl (congrArg (· + 2) h0)
  exact ⟨_, (ctrlRun_succ hw 2).trans ((ctrlRun_succ h1 1).trans (ctrlRun_succ h2 0)), rfl, rfl, rfl⟩

section Writes

variable {s : State} (hl : s.setup.params.Legal)
include hl

theorem exec_clkConfigure_write (m : BitVec 5) (p : BitVec 2) (h0 : s.ctrl.mpc = 0) (hs : s.clk.seqState = .s0Reset) :
    exec (.clkConfigure m p) s =
      .next (nextMicroStep { s with clk := { s.clk with pllcfgHold := p ++ m, feedState := .idle } }) := by
  rw [exec_of_operation (i := .clkConfigure m p) (fun _ => rfl) fun _ => by simp [precondition, hs]]
  simp only [h0]
  exact microWrite_pllcfg hl _ _

theorem exec_clkEnable_write (h0 : s.ctrl.mpc = 0) (hs : s.clk.seqState = .s1Configured) :
    exec .clkEnable s =
      .next (nextMicroStep { s with clk := { s.clk with pllconHold := 1, feedState := .idle } }) := by
  rw [exec_of_operation (i := .clkEnable) (fun _ => rfl) fun _ => by simp [precondition, hs]]
  simp only [h0]
  exact microWrite_pllconEnable hl _

theorem exec_clkSwitch_write (h0 : s.ctrl.mpc = 0) (hs : s.clk.seqState = .s3Locked) :
    exec .clkSwitch s =
      .next (nextMicroStep { s with clk := { s.clk with pllconHold := 3, feedState := .idle } }) := by
  rw [exec_of_operation (i := .clkSwitch) (fun _ => rfl) fun _ => by simp [precondition, hs]]
  simp only [h0]
  exact microWrite_pllconConnect hl _

end Writes

/-- Settles O33: a write of PLLCFG, and FEED. -/
theorem clkConfigureEffect : Obligations.ClkConfigureEffect := by
  unfold Obligations.ClkConfigureEffect
  intro m p s hl
  have hfeed := clkConfigure_endsInFeed m p
  refine ⟨fun h0 hs => outOfOrderFaults _ s h0 (by simpa [precondition] using hs), exec_clkConfigure_write hl m p,
    hfeed.first s hl, hfeed.second s hl, fun h0 hs => ?_⟩
  obtain ⟨t, hrun, hclk, hpc, hmpc⟩ := hfeed.ctrlRun_three hl h0 (exec_clkConfigure_write hl m p h0 hs)
  exact ⟨t, hrun, by simp [hclk], by simp [hclk], by simp [hclk], by simp [hclk], hpc, hmpc⟩

/-- Settles O34: a write of PLLCON, and FEED; PLLE active without a lock is what enables the PLL's step. -/
theorem clkEnableEffect : Obligations.ClkEnableEffect := by
  unfold Obligations.ClkEnableEffect
  intro s hl
  have hfeed := clkEnable_endsInFeed
  refine ⟨fun h0 hs => outOfOrderFaults _ s h0 (by simpa [precondition] using hs), exec_clkEnable_write hl,
    hfeed.first s hl, hfeed.second s hl, fun h0 hs => ?_⟩
  obtain ⟨t, hrun, hclk, hpc, hmpc⟩ := hfeed.ctrlRun_three hl h0 (exec_clkEnable_write hl h0 hs)
  refine ⟨t, hrun, by simp [hclk], by simp [hclk], by simp [hclk], fun hlock => ?_, by simp [hclk], hpc, hmpc⟩
  simp [pllEnabled, hclk, plockAfter, hlock]

/-- Settles O35: the bit polled is PLOCK. -/
theorem clkAwaitLockEffect : Obligations.ClkAwaitLockEffect := by
  unfold Obligations.ClkAwaitLockEffect
  intro s hl h0
  have hpoll : s.clk.seqState = .s2Enabled → exec .clkAwaitLock s = poll .pllstat
      (s.setup.params.profile.pllstat.place 9) .timeoutLock (State.finishClock .s3Locked) s := fun hs => by
    rw [exec_of_operation (i := .clkAwaitLock) (fun _ => rfl) fun _ => by simp [precondition, hs]]
    simp only [h0]
  refine ⟨fun hs => outOfOrderFaults _ s h0 (by simpa [precondition] using hs), fun hs hlock => ?_, fun hs hlock => ?_⟩
  · rw [hpoll hs, poll_eq hl, pllstat_bit hl, hlock]
    rfl
  · rw [hpoll hs, poll_eq hl, pllstat_bit hl, hlock, pollFailed_eq_afterFailedRead]
    rfl

/-- Settles O36: a write of PLLCON, and FEED, whose commit keeps the lock since PLLE stays and PLLCFG does not change
(40_clock.md R152). -/
theorem clkSwitchEffect : Obligations.ClkSwitchEffect := by
  unfold Obligations.ClkSwitchEffect
  intro s hl
  have hfeed := clkSwitch_endsInFeed
  refine ⟨fun h0 hs => outOfOrderFaults _ s h0 (by simpa [precondition] using hs), exec_clkSwitch_write hl,
    hfeed.first s hl, hfeed.second s hl, fun h0 hs hlock hcfg => ?_⟩
  obtain ⟨t, hrun, hclk, hpc, hmpc⟩ := hfeed.ctrlRun_three hl h0 (exec_clkSwitch_write hl h0 hs)
  have hact : t.clk.pllconAct = 3 := by simp [hclk]
  have hkept : t.clk.plock = true := by
    rw [hclk]
    exact (Clk.commit_keeps_plock (c := { s.clk with pllconHold := 3 }) hcfg (by simp)).trans hlock
  exact ⟨t, hrun, hact, hkept, by simp [connected, hact, hkept], by simp [hclk], hpc, hmpc⟩

/-- Settles O37: three writes of codes that legal parameters have, the last of which ends the sequence. -/
theorem clkTuneMemEffect : Obligations.ClkTuneMemEffect := by
  unfold Obligations.ClkTuneMemEffect
  refine ⟨rfl, rfl, fun n s hl => ?_⟩
  have hmicro := exec_of_operation (i := .clkTuneMem n) (fun _ => rfl) (s := s)
  refine ⟨fun h0 hs => outOfOrderFaults _ s h0 (by simpa [precondition] using hs), fun h0 hs hn => ?_, fun h1 => ?_,
    fun h2 => ?_⟩
  · rw [hmicro fun _ => by simp [precondition, hs]]
    simp only [h0]
    exact microWrite_mamtim hl _ hn
  · rw [hmicro (by simp [h1])]
    simp only [h1]
    exact microWrite_mamcr hl _ hl.mamMode
  · rw [hmicro (by simp [h2])]
    simp only [h2]
    exact microWrite_vpbdiv hl _ hl.vpbdivCode

/-! ### The PLL's step (40_clock.md R160) -/

/-- Settles O10: the script's next agent is the PLL, which is granted the step since it is enabled. -/
theorem pllStepSetsLockOnly : Obligations.PllStepSetsLockOnly := by
  unfold Obligations.PllStepSetsLockOnly
  refine ⟨fun _ => rfl, fun _ => rfl, fun s hpll hscript => ?_⟩
  obtain ⟨rest, hs⟩ := List.head?_eq_some_iff.mp hscript
  have hmover : mover s = some .pll := by simp [mover, hardwareEnabled, hpll, hs, grant]
  exact step_of_mover hmover

/-! ### Frequencies (40_clock.md R162) -/

theorem fcco_bootConfiguration : fcco Params.hardware 0x23 = 235929600 := by decide

theorem cclk_of_not_connected {par : Params} {c : Clk} (h : connected c = false) : cclk par c = par.fosc := by
  simp [cclk, h]

/-- Settles O18: the PLL runs while PLLE is active, and the clock is the crystal's until the PLL is connected. -/
theorem bringUpFrequencies : Obligations.BringUpFrequencies := by
  unfold Obligations.BringUpFrequencies
  intro c
  refine ⟨fun hoff => ⟨?_, cclk_of_not_connected ?_⟩, fun hon hcfg => ?_, fun hcon => cclk_of_not_connected ?_,
    fun hact hlock hcfg => ?_, fun hdiv => ?_, fun hdiv => ?_⟩
  · exact if_neg (by rw [hoff]; decide)
  · simp only [connected, hoff, Bool.false_and]
  · rw [oscillator, if_pos hon, hcfg, fcco_bootConfiguration]
  · simp only [connected, hcon, Bool.and_false, Bool.false_and]
  · have hconnected : connected c = true := by simp [connected, hact, hlock]
    rw [cclk, if_pos hconnected, hcfg]
    decide
  · rw [pclk, hdiv]
    rfl
  · rw [pclk, hdiv]
    simp [vpbDivider, Params.hardware, Profile.lpc2000]

/-! ### The feed (40_clock.md R147 to R152) -/

/-- Settles O23: PLLFEED takes every write, and the byte is the word's low eight bits. -/
theorem feedStateMachine : Obligations.FeedStateMachine := by
  unfold Obligations.FeedStateMachine
  refine ⟨rfl, rfl, fun v s hP hb => ?_⟩
  have hbyte : s.setup.params.profile.pllfeed.value 8 v = v.extractLsb' 0 8 := by
    rw [hP, RegLayout.value_range rfl (by decide), BitVec.setWidth_eq_extractLsb' (by decide)]
  have hwrite := (Profile.legal_of_lpc2000 hP hb).memWrite_addr .pllfeed v
  rw [hP] at hwrite
  refine ⟨_, hwrite.trans (if_pos rfl), ?_⟩
  rw [hbyte]
  rfl

/-- PLOCK and the active copies of PLLCON and PLLCFG (40_clock.md R149). -/
def SameActive (c d : Clk) : Prop :=
  d.pllconAct = c.pllconAct ∧ d.pllcfgAct = c.pllcfgAct ∧ d.plock = c.plock

theorem readEffect_clk (r : Reg) (s : State) : (readEffect r s).clk = s.clk := by cases r <;> rfl

/-- Only a write of PLLFEED can commit. -/
theorem storeReg_sameActive {r : Reg} (hr : r ≠ .pllfeed) (v : Word) (s : State) :
    SameActive s.clk (storeReg r v s).left.clk := by
  cases r with
  | pllfeed => exact absurd rfl hr
  | spdr =>
    simp only [storeReg, spdrWrite]
    split <;> exact ⟨rfl, rfl, rfl⟩
  | ioset0 | ioclr0 =>
    simp only [storeReg, latchWrite]
    split
    · split <;> exact ⟨rfl, rfl, rfl⟩
    · exact ⟨rfl, rfl, rfl⟩
  | _ => exact ⟨rfl, rfl, rfl⟩

/-- A write that takes place, other than one of PLLFEED, is a store and the feed abort (40_clock.md R148). -/
theorem regWrite_ok {r : Reg} {v : Word} {s t : State} (h : regWrite r v s = .ok () t) (hr : r ≠ .pllfeed) :
    t = (storeReg r v s).left.disarm := by
  unfold regWrite at h
  split at h
  · cases hs : storeReg r v s with
    | ok _ u =>
      rw [hs] at h
      simp only [feedAbort, if_neg hr] at h
      cases h
      rfl
    | bad c u =>
      rw [hs] at h
      cases c <;> cases h
  · cases h

/-- Settles O24: an access that takes place aborts the feed, and only a write of PLLFEED can commit. -/
theorem otherAccessesAbortTheFeed : Obligations.OtherAccessesAbortTheFeed := by
  unfold Obligations.OtherAccessesAbortTheFeed
  rintro r s t hl (⟨v, hread⟩ | ⟨hr, v, hwrite⟩)
  · rw [hl.memRead_addr] at hread
    cases hread
    rw [State.disarm_clk, readEffect_clk]
    exact ⟨rfl, rfl, rfl, rfl⟩
  · rw [hl.memWrite_addr] at hwrite
    rw [regWrite_ok hwrite hr]
    exact ⟨rfl, storeReg_sameActive hr v s⟩

/-! ### PLOCK and PLLE (40_clock.md R152, R160) -/

theorem LockNeedsEnable.of_sameActive {s u : State} (h : LockNeedsEnable s) (hc : SameActive s.clk u.clk) :
    LockNeedsEnable u := by
  obtain ⟨hcon, -, hlock⟩ := hc
  rw [LockNeedsEnable, hcon, hlock]
  exact h

/-- PLOCK survives a commit only if PLLE becomes or stays active (40_clock.md R152). -/
theorem plockAfter_enable {old new : BitVec 7} {con : BitVec 2} {plock : Bool}
    (h : plockAfter old new con plock = true) : con.getLsbD 0 = true := by
  cases hcon : con.getLsbD 0 with
  | true => rfl
  | false =>
    rw [plockAfter, if_pos (.inr hcon)] at h
    cases h

theorem LockNeedsEnable.feedWrite {s : State} (h : LockNeedsEnable s) (b : Byte) :
    LockNeedsEnable { s with clk := s.clk.feedWrite s.setup.params b } := by
  unfold Clk.feedWrite
  split
  · exact h
  · split
    · exact plockAfter_enable
    · exact h

theorem LockNeedsEnable.storeReg {s : State} (h : LockNeedsEnable s) (r : Reg) (v : Word) :
    LockNeedsEnable (storeReg r v s).left := by
  by_cases hr : r = .pllfeed
  · subst hr
    exact h.feedWrite _
  · exact h.of_sameActive (storeReg_sameActive hr v s)

theorem Accessed.lockNeedsEnable {s u : State} (ha : Accessed s u) (h : LockNeedsEnable s) : LockNeedsEnable u := by
  cases ha with
  | untouched => exact h
  | read r => exact h.of_sameActive (by rw [State.disarm_clk, readEffect_clk]; exact ⟨rfl, rfl, rfl⟩)
  | stored r v _ => exact h.storeReg r v
  | storedAborting r v _ => exact (h.storeReg r v).of_sameActive ⟨rfl, rfl, rfl⟩

theorem Continues.lockNeedsEnable {i : Instr} {u t : State} (hc : Continues i u t) (h : LockNeedsEnable u) :
    LockNeedsEnable t := by
  refine h.of_sameActive ?_
  rcases hc.clk with e | ⟨q, -, e⟩ <;> rw [e] <;> exact ⟨rfl, rfl, rfl⟩

/-- Settles O51: the PLL's step needs PLLE active, and PLLE and PLOCK otherwise change in a commit only. -/
theorem lockStaysUnderEnable : Obligations.LockStaysUnderEnable := by
  unfold Obligations.LockStaysUnderEnable
  intro s t hlock h
  obtain ⟨u, m, hu, rfl⟩ := step_stepped h
  cases hu with
  | lock hpll =>
    simp only [pllEnabled, Bool.and_eq_true] at hpll
    obtain ⟨henable, -⟩ := hpll
    exact fun _ => henable
  | shift | idle | illegal => exact hlock
  | ran _ ht =>
    obtain ⟨v, hv, w, hw, hend⟩ := exec_effect ht
    have hkept := hw.lockNeedsEnable (hv.lockNeedsEnable hlock)
    rcases hend with rfl | ⟨c, rfl⟩ <;> exact hkept

/-! ### What the clock operations leave alone (40_clock.md R142 to R146) -/

/-- What a clock operation leaves of CTRL: captured bytes and RESULT, and for all but CLK_AWAIT_LOCK also t and
poll_count. -/
def CtrlFrame (i : Instr) (c d : Ctrl) : Prop :=
  d.hi = c.hi ∧ d.lo = c.lo ∧ d.result = c.result ∧ (i ≠ .clkAwaitLock → d.t = c.t ∧ d.pollCount = c.pollCount)

/-- What a clock operation leaves of the clock unit: every register that its rule does not name. -/
def ClkFrame (i : Instr) (c d : Clk) : Prop :=
  ((∀ n, i ≠ .clkTuneMem n) → d.mamcr = c.mamcr ∧ d.mamtim = c.mamtim ∧ d.vpbdiv = c.vpbdiv) ∧
    ((∀ m p, i ≠ .clkConfigure m p) → d.pllcfgHold = c.pllcfgHold) ∧
    (i ≠ .clkEnable → i ≠ .clkSwitch → d.pllconHold = c.pllconHold) ∧
    (c.feedState = .idle ∨ i = .clkAwaitLock ∨ (∃ n, i = .clkTuneMem n) → SameActive c d)

/-- A step of CTRL that changes CTRL, the clock unit and the fault record only, and of the first two what the
operation's rule names. -/
def ClockOnly (i : Instr) (s t : State) : Prop :=
  ∃ c k f, t = { s with ctrl := c, clk := k, env := { s.env with fault := f } } ∧ CtrlFrame i s.ctrl c ∧
    ClkFrame i s.clk k

section ClockOnly

variable {i : Instr} {s : State}

theorem ctrlFrame_refl (i : Instr) (c : Ctrl) : CtrlFrame i c c := ⟨rfl, rfl, rfl, fun _ => ⟨rfl, rfl⟩⟩

/-- The feed and the sequencer are no part of the frame. -/
theorem clkFrame_refl (i : Instr) (c : Clk) (f : FeedState) (q : SeqState) :
    ClkFrame i c { c with feedState := f, seqState := q } :=
  ⟨fun _ => ⟨rfl, rfl, rfl⟩, fun _ => rfl, fun _ _ => rfl, fun _ => ⟨rfl, rfl, rfl⟩⟩

theorem clockOnly_raise (i : Instr) (c : Code) (s : State) : ClockOnly i s (s.raise c) :=
  ⟨_, _, _, rfl, ctrlFrame_refl i _, clkFrame_refl i _ _ _⟩

theorem clockOnly_next {k : Clk} (h : ClkFrame i s.clk k) : ClockOnly i s (nextMicroStep { s with clk := k }) :=
  ⟨_, _, _, rfl, ctrlFrame_refl i _, h⟩

theorem clockOnly_atEnd {k : Clk} (h : ClkFrame i s.clk k) : ClockOnly i s (atEnd 1 { s with clk := k }) :=
  ⟨_, _, _, rfl, ctrlFrame_refl i _, h⟩

/-- A micro-step at which the operation answers is one of its own. -/
theorem mpc_lt_of_exec {t : State} (hl : s.setup.params.Legal) (h : exec i s = .next t) :
    s.ctrl.mpc < microSteps i := by
  obtain ⟨-, hpast⟩ := everyMicroStepAnswers i s hl
  by_contra hge
  cases h.symm.trans (hpast (Nat.le_of_not_lt hge))

/-- FEED changes the feed, and commits only where the feed is armed (40_clock.md R147). -/
theorem clkFrame_feedSecond {q : SeqState} (hi : i ≠ .clkAwaitLock) (hn : ∀ n, i ≠ .clkTuneMem n) (c : Clk) :
    ClkFrame i c { (if c.feedState = .armed then c.commit else c) with feedState := .idle, seqState := q } := by
  by_cases hf : c.feedState = .armed
  · rw [if_pos hf]
    refine ⟨fun _ => ⟨rfl, rfl, rfl⟩, fun _ => rfl, fun _ _ => rfl, ?_⟩
    rintro (hidle | rfl | ⟨n, rfl⟩)
    · cases hf.symm.trans hidle
    · exact absurd rfl hi
    · exact absurd rfl (hn n)
  · rw [if_neg hf]
    exact clkFrame_refl i c _ _

end ClockOnly

section Frames

variable {s t : State} (hl : s.setup.params.Legal)
include hl

theorem exec_clockOnly_of_feed {i : Instr} {q : SeqState} (hi : EndsInFeed i q) (hm : microSteps i = 3)
    (hne : i ≠ .clkAwaitLock) (hn : ∀ n, i ≠ .clkTuneMem n)
    (hw : s.ctrl.mpc = 0 → precondition i s = true →
      ∃ k, ClkFrame i s.clk k ∧ exec i s = .next (nextMicroStep { s with clk := k })) (h : exec i s = .next t) :
    ClockOnly i s t := by
  have hk : s.ctrl.mpc < 3 := hm ▸ mpc_lt_of_exec hl h
  interval_cases h0 : s.ctrl.mpc
  · cases hp : precondition i s with
    | true =>
      obtain ⟨k, hkept, he⟩ := hw rfl hp
      cases h.symm.trans he
      exact clockOnly_next hkept
    | false =>
      cases h.symm.trans (outOfOrderFaults i s h0 hp)
      exact clockOnly_raise i .order s
  · cases h.symm.trans (hi.first s hl h0)
    exact clockOnly_next (clkFrame_refl i _ _ _)
  · cases h.symm.trans (hi.second s hl h0)
    exact clockOnly_atEnd (clkFrame_feedSecond hne hn _)

theorem clkConfigure_clockOnly {m : BitVec 5} {p : BitVec 2} (h : exec (.clkConfigure m p) s = .next t) :
    ClockOnly (.clkConfigure m p) s t := by
  refine exec_clockOnly_of_feed hl (clkConfigure_endsInFeed m p) rfl nofun nofun (fun h0 hp => ?_) h
  refine ⟨_, ?_, exec_clkConfigure_write hl m p h0 (eq_of_beq hp)⟩
  exact ⟨fun _ => ⟨rfl, rfl, rfl⟩, fun hn => absurd rfl (hn m p), fun _ _ => rfl, fun _ => ⟨rfl, rfl, rfl⟩⟩

theorem clkEnable_clockOnly (h : exec .clkEnable s = .next t) : ClockOnly .clkEnable s t := by
  refine exec_clockOnly_of_feed hl clkEnable_endsInFeed rfl nofun nofun (fun h0 hp => ?_) h
  refine ⟨_, ?_, exec_clkEnable_write hl h0 (eq_of_beq hp)⟩
  exact ⟨fun _ => ⟨rfl, rfl, rfl⟩, fun _ => rfl, fun hn => absurd rfl hn, fun _ => ⟨rfl, rfl, rfl⟩⟩

theorem clkSwitch_clockOnly (h : exec .clkSwitch s = .next t) : ClockOnly .clkSwitch s t := by
  refine exec_clockOnly_of_feed hl clkSwitch_endsInFeed rfl nofun nofun (fun h0 hp => ?_) h
  refine ⟨_, ?_, exec_clkSwitch_write hl h0 (eq_of_beq hp)⟩
  exact ⟨fun _ => ⟨rfl, rfl, rfl⟩, fun _ => rfl, fun _ hn => absurd rfl hn, fun _ => ⟨rfl, rfl, rfl⟩⟩

theorem clkAwaitLock_clockOnly (h : exec .clkAwaitLock s = .next t) : ClockOnly .clkAwaitLock s t := by
  have h0 : s.ctrl.mpc = 0 := Nat.lt_one_iff.mp (mpc_lt_of_exec hl h)
  obtain ⟨horder, hlocked, hspin⟩ := clkAwaitLockEffect s hl h0
  have hclk := clkFrame_refl .clkAwaitLock s.clk .idle
  by_cases hs : s.clk.seqState = .s2Enabled
  · cases hlock : s.clk.plock with
    | true =>
      cases h.symm.trans (hlocked hs hlock)
      exact ⟨_, _, _, rfl, ⟨rfl, rfl, rfl, fun hn => absurd rfl hn⟩, hclk _⟩
    | false =>
      cases h.symm.trans (hspin hs hlock)
      simp only [afterFailedRead]
      split <;> exact ⟨_, _, _, rfl, ⟨rfl, rfl, rfl, fun hn => absurd rfl hn⟩, hclk _⟩
  · cases h.symm.trans (horder hs)
    exact clockOnly_raise _ .order s

/-- A write of MAMTIM is refused or stores a value; legal parameters do not say which for the operand 0. -/
theorem microWrite_mamtim_cases (v : Word) (k : State → State) :
    (∃ x, microWrite .mamtim v k s = .next (k { s with clk := { s.clk with mamtim := x, feedState := .idle } })) ∨
      microWrite .mamtim v k s = .next (s.raise .unsupportedAccess) := by
  cases ha : Reg.mamtim.accepts s.setup.params.profile v with
  | true =>
    have hwrite := microWrite_ok hl k ha (by decide) rfl
    exact .inl ⟨_, hwrite⟩
  | false => exact .inr (microWrite_refused hl k ha)

theorem clkTuneMem_clockOnly {n : BitVec 3} (h : exec (.clkTuneMem n) s = .next t) :
    ClockOnly (.clkTuneMem n) s t := by
  have hk : s.ctrl.mpc < 3 := mpc_lt_of_exec hl h
  obtain ⟨-, -, heffect⟩ := clkTuneMemEffect
  obtain ⟨-, -, hmode, hdivider⟩ := heffect n s hl
  have hframe : ∀ d : Clk, d.pllcfgHold = s.clk.pllcfgHold → d.pllconHold = s.clk.pllconHold → SameActive s.clk d →
      ClkFrame (.clkTuneMem n) s.clk d := fun d hcfg hcon hact =>
    ⟨fun hn => absurd rfl (hn n), fun _ => hcfg, fun _ _ => hcon, fun _ => hact⟩
  interval_cases h0 : s.ctrl.mpc
  · cases hp : precondition (.clkTuneMem n) s with
    | true =>
      have hmicro := exec_of_operation (i := .clkTuneMem n) (fun _ => rfl) (fun _ => hp)
      simp only [h0] at hmicro
      rcases microWrite_mamtim_cases hl (s.setup.params.profile.mamtim.word n) State.advance with ⟨x, he⟩ | he
      · cases h.symm.trans (hmicro.trans he)
        exact clockOnly_next (hframe _ rfl rfl ⟨rfl, rfl, rfl⟩)
      · cases h.symm.trans (hmicro.trans he)
        exact clockOnly_raise _ _ s
    | false =>
      cases h.symm.trans (outOfOrderFaults _ s h0 hp)
      exact clockOnly_raise _ .order s
  · cases h.symm.trans (hmode rfl)
    exact clockOnly_next (hframe _ rfl rfl ⟨rfl, rfl, rfl⟩)
  · cases h.symm.trans (hdivider rfl)
    exact clockOnly_atEnd (hframe _ rfl rfl ⟨rfl, rfl, rfl⟩)

end Frames

/-- Settles O46: each micro-step changes CTRL, the clock unit and the fault record only. -/
theorem clockOperationsFrame : Obligations.ClockOperationsFrame := by
  unfold Obligations.ClockOperationsFrame
  intro i s t hl hi h
  have honly : ClockOnly i s t := by
    rcases hi with ⟨m, p, rfl⟩ | rfl | rfl | rfl | ⟨n, rfl⟩
    · exact clkConfigure_clockOnly hl h
    · exact clkEnable_clockOnly hl h
    · exact clkAwaitLock_clockOnly hl h
    · exact clkSwitch_clockOnly hl h
    · exact clkTuneMem_clockOnly hl h
  obtain ⟨c, k, f, rfl, ⟨hhi, hlo, hresult, hpoll⟩, hclk⟩ := honly
  exact ⟨rfl, rfl, rfl, rfl, rfl, rfl, rfl, hhi, hlo, hresult, hpoll, hclk⟩

/-! ### The invariant, and what is left of it to show for a step (section 5; 41_serial.md section 5) -/

/-- The part of the invariant that depends on where CTRL is. -/
def PlaceInv (t : State) : Prop := CtrlInv t ∧ ClockInv t ∧ LinkInv t ∧ CodesInv t

/-- The parameters, the registers' codes and the fault record are kept whatever the step. -/
theorem BlockInv.of_placeInv {s t : State} (h : BlockInv s) (hstep : step s = .next t) (ht : PlaceInv t) :
    BlockInv t := by
  obtain ⟨hlegal, hregs, hrec, -⟩ := h
  obtain ⟨-, hparams, -⟩ := setupNeverChanges s t hstep
  obtain ⟨hrec', -⟩ := faultRecordIsSticky s t hrec hstep
  exact ⟨hparams ▸ hlegal, registersStayLegal s t hregs hstep, hrec', ht⟩

theorem position_congr {s t : State} (hctrl : t.ctrl = s.ctrl) (hsetup : t.setup = s.setup) :
    position t = position s := by
  simp [position, opAt, fetch, hctrl, hsetup]

/-- An order check reads the sequencer and the link only. -/
theorem precondition_congr {s t : State} (i : Instr) (hseq : t.clk.seqState = s.clk.seqState)
    (hlink : t.ser.linkState = s.ser.linkState) : precondition i t = precondition i s := by
  cases i <;> simp [precondition, linkReady, hseq, hlink]

theorem CtrlInv.congr {s t : State} (h : CtrlInv s) (hctrl : t.ctrl = s.ctrl) (hsetup : t.setup = s.setup)
    (hseq : t.clk.seqState = s.clk.seqState) (hlink : t.ser.linkState = s.ser.linkState) : CtrlInv t := by
  unfold CtrlInv at h ⊢
  rw [position_congr hctrl hsetup, hctrl]
  split at h
  · simpa only [precondition_congr _ hseq hlink] using h
  · exact h

/-! ### The PLL's and the SHIFTER's steps (R160; 41_serial.md R186) -/

/-- The PLL locks from CLK_ENABLE's commit on (R159). -/
theorem ClockAt.lock {pos : Option (Instr × Nat)} {c : Clk} (h : ClockAt pos c) (hon : c.pllconAct.getLsbD 0 = true) :
    ClockAt pos c.lock := by
  obtain ⟨hfeed, hcon, hcfg, hact, -, -, hmam⟩ := h
  refine ⟨hfeed, hcon, hcfg, hact, fun _ => ?_, fun _ => rfl, hmam⟩
  by_contra hrank
  have hlow : c.seqState.rank < 2 := Nat.lt_of_not_le hrank
  rw [hact, if_pos hlow] at hon
  cases hon

theorem pllStep_placeInv {s : State} (h : BlockInv s) (hpll : pllEnabled s = true) : PlaceInv (pllStep s) := by
  obtain ⟨-, -, -, hctrl, hclk, hlink, hcodes⟩ := h
  simp only [pllEnabled, Bool.and_eq_true] at hpll
  obtain ⟨hon, -⟩ := hpll
  exact ⟨hctrl.congr rfl rfl rfl rfl, ClockAt.lock hclk hon, hlink, hcodes⟩

/-- A transfer in flight is awaited, or was when the poll timed out; its completion sets the SPIF that the poll waits
for (41_serial.md R181, R186). -/
theorem LinkAt.finish {pin : Fin 32} {pos : Option (Instr × Nat)} {st : Status} {q : SeqState} {r : Ser}
    (h : LinkAt pin pos st q r) (hb : r.busy = true) (rx : Byte) : LinkAt pin pos st q (r.finish rx) := by
  obtain ⟨hready, hunconf, hwcol, htransfer, hcs, hspcr⟩ := h
  refine ⟨hready, fun hl => ?_, hwcol, fun hst => ?_, hcs, hspcr⟩
  · obtain ⟨hidle, -⟩ := hunconf hl
    cases hb.symm.trans hidle
  · have hquiet := htransfer hst
    split at hquiet
    · next ha =>
      obtain ⟨-, harmed⟩ := hquiet
      rw [if_pos ha]
      exact ⟨rfl, harmed⟩
    · obtain ⟨hidle, -⟩ := hquiet
      cases hb.symm.trans hidle

theorem shifterStep_placeInv {s : State} (h : BlockInv s) (hshift : shifterEnabled s = true) :
    PlaceInv (shifterStep s) := by
  obtain ⟨-, -, -, hctrl, hclk, hlink, hcodes⟩ := h
  simp only [shifterEnabled, Bool.and_eq_true] at hshift
  obtain ⟨hbusy, -⟩ := hshift
  exact ⟨hctrl.congr rfl rfl rfl rfl, hclk, LinkAt.finish hlink hbusy _, hcodes⟩

/-! ### Where CTRL's step can leave it (10_state.md R23 to R25) -/

/-- Whatever CTRL was waiting for, once it has stopped only the link's own flags count. -/
theorem LinkAt.faulted {pin : Fin 32} {pos : Option (Instr × Nat)} {st : Status} {q : SeqState} {r : Ser}
    (h : LinkAt pin pos st q r) : LinkAt pin none .faulted q r := by
  obtain ⟨hready, hunconf, hwcol, -⟩ := h
  exact ⟨hready, hunconf, hwcol, fun hne => absurd rfl hne, nofun, nofun⟩

theorem LinkAt.of_run {pin : Fin 32} {pos : Option (Instr × Nat)} {q : SeqState} {r : Ser}
    (h : LinkAt pin pos .run q r) (st : Status) : LinkAt pin pos st q r := by
  obtain ⟨hready, hunconf, hwcol, htransfer, hrest⟩ := h
  exact ⟨hready, hunconf, hwcol, fun _ => htransfer (by decide), hrest⟩

/-- Raising a code that a host operation can raise stops CTRL, with nothing left pending in the clock unit. -/
theorem placeInv_raise {u : State} {c : Code} {pos : Option (Instr × Nat)} {st : Status}
    (hc : c = .illegalOp ∨ c = .order ∨ u.setup.params.pollBudget ≠ none ∧ (c = .timeoutBus ∨ c = .timeoutLock))
    (hclk : ClockAt none u.clk) (hlink : LinkAt u.setup.params.csPin pos st u.clk.seqState u.ser) :
    PlaceInv (u.raise c) := by
  have hpos : position (u.raise c) = none := if_neg (by simp)
  refine ⟨?_, ?_, ?_, ?_⟩
  · rw [CtrlInv, hpos]
    exact nofun
  · rwa [ClockInv, hpos]
  · rw [LinkInv, hpos]
    exact hlink.faulted
  · rintro r ⟨⟩
    exact ⟨rfl, hc⟩

/-- The same words at op_pc are the same operation. -/
theorem Runs.congr {i : Instr} {s t : State} (hr : Runs i s) (hstatus : t.ctrl.status = s.ctrl.status)
    (hpc : t.ctrl.opPc = s.ctrl.opPc) (hsetup : t.setup = s.setup) : Runs i t := by
  refine ⟨hstatus.trans hr.status_run, ?_⟩
  rw [opAt, fetch, hsetup, hpc]
  exact hr.2

section Running

variable {i : Instr} {s t : State} (h : BlockInv s) (hr : Runs i s)
include h hr

theorem Runs.linkAt : LinkAt s.setup.params.csPin (some (i, s.ctrl.mpc)) .run s.clk.seqState s.ser := by
  obtain ⟨-, -, -, -, -, hlink, -⟩ := h
  rwa [LinkInv, hr.position_eq, hr.status_run] at hlink

theorem Runs.codesInv (hfault : t.env.fault = s.env.fault) : CodesInv t := by
  obtain ⟨-, -, hrec, -⟩ := h
  intro r hf
  rw [hfault, hrec.fault_eq_none hr.status_run] at hf
  cases hf

/-- CTRL is still in the operation, at micro-step `k`. -/
theorem placeInv_at {k : Nat} (hk : k < microSteps i) (hp : precondition i s = true)
    (hclk : ClockAt (some (i, k)) t.clk)
    (hlink : LinkAt s.setup.params.csPin (some (i, k)) .run s.clk.seqState t.ser)
    (hstatus : t.ctrl.status = s.ctrl.status := by rfl) (hpc : t.ctrl.opPc = s.ctrl.opPc := by rfl)
    (hmpc : t.ctrl.mpc = k := by rfl) (hsetup : t.setup = s.setup := by rfl)
    (hfault : t.env.fault = s.env.fault := by rfl) (hseq : t.clk.seqState = s.clk.seqState := by rfl)
    (hstate : t.ser.linkState = s.ser.linkState := by rfl) : PlaceInv t := by
  have hrun : Runs i t := hr.congr hstatus hpc hsetup
  have hpos : position t = some (i, k) := by rw [hrun.position_eq, hmpc]
  refine ⟨?_, ?_, ?_, hr.codesInv h hfault⟩
  · rw [CtrlInv, hpos]
    exact ⟨hk, fun _ => (precondition_congr i hseq hstate).trans hp⟩
  · rwa [ClockInv, hpos]
  · rwa [LinkInv, hpos, hsetup, hseq, hrun.status_run]

/-- The operation has ended. -/
theorem placeInv_end (hclk : ClockAt none t.clk) (hlink : LinkAt s.setup.params.csPin none .run t.clk.seqState t.ser)
    (hmpc : t.ctrl.mpc = 0 := by rfl) (hsetup : t.setup = s.setup := by rfl)
    (hfault : t.env.fault = s.env.fault := by rfl) : PlaceInv t :=
  ⟨ctrlInv_start hmpc, clockAt_start hmpc hclk, linkAt_start hmpc (by rw [hsetup]; exact hlink.of_run _),
    hr.codesInv h hfault⟩

end Running

/-! ### Micro-steps with nothing pending in the clock unit -/

/-- No write of the clock unit waits for its commit at micro-step `k`, and no feed is under way. -/
def NothingPending (i : Instr) (k : Nat) : Prop :=
  feedPending i k = false ∧ pllconPending i k = none ∧ pllcfgPending i k = none

theorem NothingPending.clockAt_iff {i : Instr} {k : Nat} (hn : NothingPending i k) (c : Clk) :
    ClockAt (some (i, k)) c ↔ ClockAt none c := by
  obtain ⟨hf, hcon, hcfg⟩ := hn
  simp [ClockAt, hf, hcon, hcfg]

theorem nothingPending_start (i : Instr) : NothingPending i 0 := by cases i <;> exact ⟨rfl, rfl, rfl⟩

theorem ClockAt.disarm {c : Clk} (h : ClockAt none c) : ClockAt none c.disarm := by
  obtain ⟨-, hrest⟩ := h
  exact ⟨by simp, hrest⟩

section Refused

variable {i : Instr} {s : State} (h : BlockInv s) (hr : Runs i s)
include h hr

theorem Runs.clockAt_none (hn : NothingPending i s.ctrl.mpc) : ClockAt none s.clk :=
  (hn.clockAt_iff _).mp (hr.clockAt h)

/-- An operation begun out of order (R140). -/
theorem placeInv_order (h0 : s.ctrl.mpc = 0) : PlaceInv (s.raise .order) :=
  placeInv_raise (.inr (.inl rfl)) (hr.clockAt_none h (h0 ▸ nothingPending_start i)) (hr.linkAt h)

/-- A failed poll read with nothing pending spins, or times out where the budget is finite (00_scope.md R11). -/
theorem placeInv_pollFailed {u : State} {c : Code} (hc : c = .timeoutBus ∨ c = .timeoutLock)
    (hp : precondition i s = true) (hn : NothingPending i s.ctrl.mpc) (hclk : u.clk = s.clk.disarm)
    (hlink : LinkAt s.setup.params.csPin (some (i, s.ctrl.mpc)) .run s.clk.seqState u.ser)
    (hplace : SamePlace s u) (hsetup : u.setup = s.setup := by rfl) (hfault : u.env.fault = s.env.fault := by rfl)
    (hstate : u.ser.linkState = s.ser.linkState := by rfl) : PlaceInv (afterFailedRead c u) := by
  obtain ⟨hstatus, hpc, hmpc⟩ := hplace
  have hidle : ClockAt none u.clk := hclk ▸ (hr.clockAt_none h hn).disarm
  have hseq : u.clk.seqState = s.clk.seqState := by rw [hclk]; rfl
  rw [← pollFailed_eq_afterFailedRead]
  rcases pollFailed_cases c u with he | ⟨hbudget, he⟩ <;> rw [he]
  · exact placeInv_at h hr (hr.mpc_lt h) hp ((hn.clockAt_iff _).mpr hidle) hlink hstatus hpc hmpc hsetup hfault hseq
      hstate
  · have hfinite : u.setup.params.pollBudget ≠ none := by simp [hbudget]
    refine placeInv_raise (.inr (.inr ⟨hfinite, hc⟩)) hidle (pos := some (i, s.ctrl.mpc)) (st := .run) ?_
    rw [State.setPollCount_setup, State.setPollCount_clk, hsetup, hseq]
    exact hlink

end Refused

/-! ### The clock operations keep the invariant (R142 to R146, R157 to R159) -/

/-- The serial unit has no part in a clock operation. -/
theorem linkAt_clock_iff {i : Instr} {q' : SeqState} (hq : seqEnd i = some q') {k : Nat} {pin : Fin 32} {st : Status}
    {q : SeqState} {r : Ser} : LinkAt pin (some (i, k)) st q r ↔ LinkAt pin none st q r := by
  cases i with
  | clkConfigure | clkEnable | clkAwaitLock | clkSwitch | clkTuneMem => simp [LinkAt, awaiting, sendsFrame, carrier]
  | _ => cases hq

/-- Before S5_DONE the link is not ready, whichever state the sequencer goes to (41_serial.md R180). -/
theorem LinkAt.of_not_done {pin : Fin 32} {st : Status} {q : SeqState} {r : Ser} (h : LinkAt pin none st q r)
    (hq : q ≠ .s5Done) (q' : SeqState) : LinkAt pin none st q' r := by
  obtain ⟨hready, hrest⟩ := h
  refine ⟨fun hl => ?_, hrest⟩
  obtain ⟨hdone, -⟩ := hready hl
  exact absurd hdone hq

/-- A clock operation is refused once the sequence is done (R140). -/
theorem not_done_of_seqEnd {i : Instr} {s : State} {q : SeqState} (hp : precondition i s = true)
    (hq : seqEnd i = some q) : s.clk.seqState ≠ .s5Done := by
  intro hdone
  have hrank := rank_seqEnd hp hq
  rw [hdone] at hrank
  cases q <;> cases hrank

section Clock

variable {i : Instr} {s t : State} {q : SeqState} (h : BlockInv s) (hr : Runs i s) (hq : seqEnd i = some q)
  (hp : precondition i s = true)
include h hr hq hp

theorem placeInv_clock_next {c : Clk} (hk : s.ctrl.mpc + 1 < microSteps i)
    (hclk : ClockAt (some (i, s.ctrl.mpc + 1)) c) (hseq : c.seqState = s.clk.seqState) :
    PlaceInv (nextMicroStep { s with clk := c }) :=
  placeInv_at h hr hk hp hclk ((linkAt_clock_iff hq).mpr ((linkAt_clock_iff hq).mp (hr.linkAt h))) (hseq := hseq)

theorem placeInv_clock_end (hclk : ClockAt none t.clk) (hser : t.ser = s.ser := by rfl)
    (hmpc : t.ctrl.mpc = 0 := by rfl) (hsetup : t.setup = s.setup := by rfl)
    (hfault : t.env.fault = s.env.fault := by rfl) : PlaceInv t := by
  have hlink := ((linkAt_clock_iff hq).mp (hr.linkAt h)).of_not_done (not_done_of_seqEnd hp hq) t.clk.seqState
  exact placeInv_end h hr hclk (hser ▸ hlink) hmpc hsetup hfault

/-- FEED.f0 arms the feed for FEED.f1, and nothing else changes in between (R157). -/
theorem EndsInFeed.placeInv (hi : EndsInFeed i q) (hm : microSteps i = 3)
    (hpending : pllconPending i 2 = pllconPending i 1 ∧ pllcfgPending i 2 = pllcfgPending i 1)
    (hfeed : feedPending i 2 = true)
    (hwrite : s.ctrl.mpc = 0 → ∃ c, exec i s = .next (nextMicroStep { s with clk := c }) ∧
      c.seqState = s.clk.seqState ∧ (ClockAt (some (i, 0)) s.clk → ClockAt (some (i, 1)) c))
    (hcommit : ClockAt (some (i, 2)) s.clk → ClockAt none { s.clk.commit with feedState := .idle, seqState := q })
    (he : exec i s = .next t) : PlaceInv t := by
  have hk : s.ctrl.mpc < 3 := hm ▸ hr.mpc_lt h
  have hclk := hr.clockAt h
  have harmed := hr.armed_iff h
  interval_cases h0 : s.ctrl.mpc
  · obtain ⟨c, he', hseq, hc⟩ := hwrite rfl
    cases he.symm.trans he'
    exact placeInv_clock_next h hr hq hp (by rw [h0, hm]; decide) (by rw [h0]; exact hc hclk) hseq
  · cases he.symm.trans (hi.first s h.legal h0)
    obtain ⟨-, hcon, hcfg, hrest⟩ := hclk
    obtain ⟨hcon', hcfg'⟩ := hpending
    refine placeInv_clock_next h hr hq hp (by rw [h0, hm]; decide) ?_ rfl
    rw [h0]
    exact ⟨by simp [hfeed], by simpa [hcon'] using hcon, by simpa [hcfg'] using hcfg, hrest⟩
  · cases he.symm.trans (hi.second s h.legal h0)
    rw [if_pos (harmed.mpr hfeed)]
    exact placeInv_clock_end h hr hq hp (hcommit hclk)

end Clock

section ClockOperations

variable {s t : State} (h : BlockInv s)
include h

theorem clkConfigure_placeInv {m : BitVec 5} {p : BitVec 2} (hr : Runs (.clkConfigure m p) s)
    (hp : precondition (.clkConfigure m p) s = true) (he : exec (.clkConfigure m p) s = .next t) : PlaceInv t := by
  have hs : s.clk.seqState = .s0Reset := eq_of_beq hp
  refine (clkConfigure_endsInFeed m p).placeInv h hr rfl hp rfl ⟨rfl, rfl⟩ rfl (fun h0 => ?_) (fun hclk => ?_) he
  · refine ⟨_, exec_clkConfigure_write h.legal m p h0 hs, rfl, fun hclk => ?_⟩
    obtain ⟨-, hcon, -, hrest⟩ := hclk
    exact ⟨by simp [feedPending], hcon, rfl, hrest⟩
  · obtain ⟨-, hcon, -, hact, -, -, hmam⟩ := hclk
    have hoff : s.clk.pllconHold = 0#2 := by simpa [pllconPending, hact, hs, SeqState.rank] using hcon
    have hmamcr : s.clk.mamcr = 0#2 := hmam (by rw [hs]; decide)
    simp [ClockAt, hoff, hmamcr, plockAfter, SeqState.rank]

theorem clkEnable_placeInv (hr : Runs .clkEnable s) (hp : precondition .clkEnable s = true)
    (he : exec .clkEnable s = .next t) : PlaceInv t := by
  have hs : s.clk.seqState = .s1Configured := eq_of_beq hp
  refine clkEnable_endsInFeed.placeInv h hr rfl hp rfl ⟨rfl, rfl⟩ rfl (fun h0 => ?_) (fun hclk => ?_) he
  · refine ⟨_, exec_clkEnable_write h.legal h0 hs, rfl, fun hclk => ?_⟩
    obtain ⟨-, -, hcfg, hrest⟩ := hclk
    exact ⟨by simp [feedPending], rfl, hcfg, hrest⟩
  · obtain ⟨-, hcon, -, -, -, -, hmam⟩ := hclk
    have hon : s.clk.pllconHold = 1#2 := by simpa [pllconPending] using hcon
    have hmamcr : s.clk.mamcr = 0#2 := hmam (by rw [hs]; decide)
    simp [ClockAt, hon, hmamcr, SeqState.rank]

theorem clkSwitch_placeInv (hr : Runs .clkSwitch s) (hp : precondition .clkSwitch s = true)
    (he : exec .clkSwitch s = .next t) : PlaceInv t := by
  have hs : s.clk.seqState = .s3Locked := eq_of_beq hp
  refine clkSwitch_endsInFeed.placeInv h hr rfl hp rfl ⟨rfl, rfl⟩ rfl (fun h0 => ?_) (fun hclk => ?_) he
  · refine ⟨_, exec_clkSwitch_write h.legal h0 hs, rfl, fun hclk => ?_⟩
    obtain ⟨-, -, hcfg, hrest⟩ := hclk
    exact ⟨by simp [feedPending], rfl, hcfg, hrest⟩
  · obtain ⟨-, hcon, hcfg, -, -, hlocked, -⟩ := hclk
    have hon : s.clk.pllconHold = 3#2 := by simpa [pllconPending] using hcon
    have hsame : s.clk.pllcfgHold = s.clk.pllcfgAct := by simpa [pllcfgPending] using hcfg
    have hlock : s.clk.commit.plock = true :=
      (Clk.commit_keeps_plock hsame (by simp [hon])).trans (hlocked (by rw [hs]; decide))
    rw [Clk.commit_plock, hon] at hlock
    simp [ClockAt, hon, hlock, SeqState.rank]

theorem clkAwaitLock_placeInv (hr : Runs .clkAwaitLock s) (hp : precondition .clkAwaitLock s = true)
    (he : exec .clkAwaitLock s = .next t) : PlaceInv t := by
  have h0 : s.ctrl.mpc = 0 := Nat.lt_one_iff.mp (hr.mpc_lt h)
  have hs : s.clk.seqState = .s2Enabled := eq_of_beq hp
  have hn : NothingPending .clkAwaitLock s.ctrl.mpc := ⟨rfl, rfl, rfl⟩
  obtain ⟨-, hlocked, hspin⟩ := clkAwaitLockEffect s h.legal h0
  cases hlock : s.clk.plock with
  | true =>
    cases he.symm.trans (hlocked hs hlock)
    obtain ⟨-, hcon, hcfg, hact, -, -, hmam⟩ := hr.clockAt_none h hn
    have hon : s.clk.pllconAct = 1#2 := by simpa [hs, SeqState.rank] using hact
    have hmamcr : s.clk.mamcr = 0#2 := hmam (by rw [hs]; decide)
    exact placeInv_clock_end h hr rfl hp
      ⟨by simp [atEnd], hcon, hcfg, hon, fun _ => show 2 ≤ SeqState.s3Locked.rank by decide, fun _ => hlock,
        fun _ => hmamcr⟩
  | false =>
    cases he.symm.trans (hspin hs hlock)
    exact placeInv_pollFailed h hr (.inr rfl) hp hn rfl (hr.linkAt h) ⟨rfl, rfl, rfl⟩

theorem clkTuneMem_placeInv {n : BitVec 3} (hr : Runs (.clkTuneMem n) s)
    (hp : precondition (.clkTuneMem n) s = true) (he : exec (.clkTuneMem n) s = .next t) : PlaceInv t := by
  have hk : s.ctrl.mpc < 3 := hr.mpc_lt h
  have hs : s.clk.seqState = .s4Switched := eq_of_beq hp
  have hn : n ≠ 0#3 := by simpa [Instr.wellFormed] using hr.wellFormed
  have hpending : ∀ k, NothingPending (.clkTuneMem n) k := fun _ => ⟨rfl, rfl, rfl⟩
  obtain ⟨-, hcon, hcfg, hact, hlow, hlocked, hmam⟩ := hr.clockAt_none h (hpending _)
  obtain ⟨-, -, heffect⟩ := clkTuneMemEffect
  obtain ⟨-, hcycles, hmode, hdivider⟩ := heffect n s h.legal
  interval_cases h0 : s.ctrl.mpc
  · cases he.symm.trans (hcycles rfl hs hn)
    exact placeInv_clock_next h hr rfl hp (by simp [h0, microSteps])
      (((hpending _).clockAt_iff _).mpr ⟨by simp, hcon, hcfg, hact, hlow, hlocked, hmam⟩) rfl
  · cases he.symm.trans (hmode rfl)
    refine placeInv_clock_next h hr rfl hp (by simp [h0, microSteps])
      (((hpending _).clockAt_iff _).mpr ⟨by simp, hcon, hcfg, hact, hlow, hlocked, fun hrank => ?_⟩) rfl
    rw [hs] at hrank
    exact absurd hrank (by decide)
  · cases he.symm.trans (hdivider rfl)
    have hconnect : s.clk.pllconAct = 3#2 := by simpa [hs, SeqState.rank] using hact
    have hlock : s.clk.plock = true := hlocked (by rw [hs]; decide)
    exact placeInv_clock_end h hr rfl hp
      ⟨by simp [atEnd], hcon, hcfg, hconnect, fun _ => show 2 ≤ SeqState.s5Done.rank by decide, fun _ => hlock,
        fun hrank => absurd hrank (show ¬SeqState.s5Done.rank < 4 by decide)⟩

end ClockOperations

/-! ### BUS_CONFIG keeps the invariant (41_serial.md R192) -/

/-- Before the link is ready no transfer has been made, and from BUS_CONFIG's fifth micro-step on the port is master. -/
theorem linkAt_busConfig_iff {pin : Fin 32} {d : Byte} {k : Nat} {q : SeqState} {r : Ser}
    (hl : r.linkState = .l0Unconfigured) :
    LinkAt pin (some (.busConfig d, k)) .run q r ↔
      (r.busy = false ∧ r.spif = false ∧ r.spifArmed = false) ∧ r.wcol = false ∧ (4 ≤ k → r.spcr = 0x20#8) := by
  constructor
  · rintro ⟨-, hunconf, hwcol, -, -, hspcr⟩
    exact ⟨hunconf hl, hwcol, hspcr d k rfl⟩
  · rintro ⟨⟨hbusy, hspif, harmed⟩, hwcol, hspcr⟩
    refine ⟨fun hl' => ?_, fun _ => ⟨hbusy, hspif, harmed⟩, hwcol, fun _ => ?_, ?_, ?_⟩
    · cases hl.symm.trans hl'
    · simp [awaiting, hbusy, hspif, harmed]
    · rintro _ _ ⟨⟩ hf
      cases hf
    · rintro _ _ ⟨⟩
      exact hspcr

/-- BUS_CONFIG writes nothing that waits for a commit. -/
theorem nothingPending_busConfig (d : Byte) (k : Nat) : NothingPending (.busConfig d) k := ⟨rfl, rfl, rfl⟩

section BusConfig

variable {d : Byte} {s t : State} (h : BlockInv s) (hr : Runs (.busConfig d) s)
  (hp : precondition (.busConfig d) s = true)
include hp

theorem busConfig_requires : s.clk.seqState = .s5Done ∧ s.ser.linkState = .l0Unconfigured := by
  simpa [precondition] using hp

include h hr

/-- A micro-step of BUS_CONFIG but its last: its access touches no flag of the link. -/
theorem placeInv_busConfig_next {u : State} (hk : s.ctrl.mpc + 1 < 7) (hflags : SameFlags s u)
    (hspcr : 4 ≤ s.ctrl.mpc + 1 → u.ser.spcr = 0x20#8) (hplace : SamePlace s u := by exact ⟨rfl, rfl, rfl⟩)
    (hclk : u.clk = s.clk := by rfl) (hsetup : u.setup = s.setup := by rfl)
    (hfault : u.env.fault = s.env.fault := by rfl) (hstate : u.ser.linkState = s.ser.linkState := by rfl) :
    PlaceInv u.disarm.advance := by
  obtain ⟨-, -, hspif', hwcol', harmed', hbusy'⟩ := hflags
  obtain ⟨hstatus, hpc, hmpc⟩ := hplace
  obtain ⟨-, hl⟩ := busConfig_requires hp
  obtain ⟨⟨hbusy, hspif, harmed⟩, hwcol, -⟩ := (linkAt_busConfig_iff hl).mp (hr.linkAt h)
  have hidle : ClockAt none u.disarm.clk := by
    rw [State.disarm_clk, hclk]
    exact (hr.clockAt_none h (nothingPending_busConfig d _)).disarm
  refine placeInv_at h hr hk hp (((nothingPending_busConfig d _).clockAt_iff _).mpr hidle)
    ((linkAt_busConfig_iff (hstate.trans hl)).mpr ?_) hstatus hpc (congrArg (· + 1) hmpc) hsetup hfault
    (congrArg (·.seqState) hclk) hstate
  exact ⟨⟨hbusy'.trans hbusy, hspif'.trans hspif, harmed'.trans harmed⟩, hwcol'.trans hwcol, hspcr⟩

/-- BUS_CONFIG's last micro-step makes the chip-select pin an output; the port is master since its fourth. -/
theorem placeInv_busConfig_end (hm : s.ctrl.mpc = 6) (v : Word) :
    PlaceInv (({ s with ser := { s.ser with iodir0 := v ||| csm s.setup.params.csPin } } :
      State).disarm.finishBusConfig) := by
  obtain ⟨hdone, hl⟩ := busConfig_requires hp
  obtain ⟨⟨hbusy, hspif, harmed⟩, hwcol, hspcr⟩ := (linkAt_busConfig_iff hl).mp (hr.linkAt h)
  have hmaster : s.ser.spcr = 0x20#8 := hspcr (by rw [hm]; decide)
  refine placeInv_end h hr (hr.clockAt_none h (nothingPending_busConfig d _)).disarm ?_
  exact ⟨fun _ => ⟨hdone, hmaster, csBit_or_csm _ _⟩, nofun, hwcol, fun _ => ⟨hbusy, harmed.trans hspif.symm⟩, nofun,
    nofun⟩

theorem busConfig_placeInv (he : exec (.busConfig d) s = .next t) : PlaceInv t := by
  have hk : s.ctrl.mpc < 7 := hr.mpc_lt h
  have hbytes : 8 ≤ d.toNat ∧ d.toNat % 2 = 0 := by simpa [Instr.wellFormed] using hr.wellFormed
  obtain ⟨h8, h2⟩ := hbytes
  have hbusy : s.ser.busy = false := hr.not_busy h rfl
  have hmaster : 4 ≤ s.ctrl.mpc → s.ser.spcr = 0x20#8 := by
    obtain ⟨-, -, hspcr⟩ := (linkAt_busConfig_iff (busConfig_requires hp).2).mp (hr.linkAt h)
    exact hspcr
  have hmicro := he.symm.trans (exec_of_operation (i := .busConfig d) (fun _ => rfl) fun _ => hp)
  interval_cases hm : s.ctrl.mpc
  · cases hmicro.trans (microRead_eq h.legal _ _)
    exact placeInv_busConfig_next (u := s.setT _) h hr hp (by omega) ⟨rfl, rfl, rfl, rfl, rfl, rfl⟩ (by omega)
  · cases hmicro.trans (microWrite_pinsel0 h.legal _ _)
    exact placeInv_busConfig_next h hr hp (by omega) ⟨rfl, rfl, rfl, rfl, rfl, rfl⟩ (by omega)
  · cases hmicro.trans (microWrite_spccr h.legal _ h8 h2)
    exact placeInv_busConfig_next h hr hp (by omega) ⟨rfl, rfl, rfl, rfl, rfl, rfl⟩ (by omega)
  · cases hmicro.trans (microWrite_spcr h.legal _)
    exact placeInv_busConfig_next h hr hp (by omega) ⟨rfl, rfl, rfl, rfl, rfl, rfl⟩ (fun _ => rfl)
  · cases hmicro.trans (csHigh_eq h.legal _ hbusy)
    exact placeInv_busConfig_next h hr hp (by omega) ⟨rfl, rfl, rfl, rfl, rfl, rfl⟩ (fun _ => hmaster (by omega))
  · cases hmicro.trans (microRead_eq h.legal _ _)
    exact placeInv_busConfig_next (u := s.setT _) h hr hp (by omega) ⟨rfl, rfl, rfl, rfl, rfl, rfl⟩
      (fun _ => hmaster (by omega))
  · cases hmicro.trans (microWrite_iodir0 h.legal _ _)
    exact placeInv_busConfig_end h hr hp hm _

end BusConfig

/-! ### The micro-steps of a frame (41_serial.md R193 to R195) -/

/-- A micro-step `k` of an operation or frame that sends bytes: it asserts chip-select, queues or awaits or captures a
byte, or releases chip-select and ends. -/
inductive FrameMicroStep (i : Instr) (k : Nat) : Prop
  | assert (hk : k = 0) (hlt : k + 1 < microSteps i) (hd : DrivesCs i k (frameCs i) nextMicroStep)
  | queue {b : Params → Byte} (hk : k ≠ 0) (hq : QueuesByte i k b) (ha : awaiting i k = false)
    (ha' : awaiting i (k + 1) = true)
  | await (hw : AwaitsByte i k) (ha : awaiting i k = true) (ha' : awaiting i (k + 1) = false)
  | capture {dst : Byte → Ctrl → Ctrl} (hk : k ≠ 0) (hlt : k + 1 < microSteps i) (hc : CapturesByte i k dst)
    (ha : awaiting i k = false) (ha' : awaiting i (k + 1) = false)
    (hdst : ∀ b c, ∃ hi lo, dst b c = { c with hi := hi, lo := lo })
  | release {after : State → State} (hk : k + 1 = microSteps i) (ha : awaiting i k = false)
    (hd : DrivesCs i k (!frameCs i) after)
    (hafter : ∀ u : State, (after u).ctrl.mpc = 0 ∧ (after u).clk = u.clk ∧ (after u).ser = u.ser ∧
      (after u).setup = u.setup ∧ (after u).env.fault = u.env.fault)

/-- A frame that captures nothing and sends `n` bytes, two micro-steps each. -/
theorem frameMicroStep_of_bytes {i : Instr} {n k : Nat} {len : Nat} (hn : microSteps i = 2 * n + 2)
    (hawait : ∀ j, awaiting i j = (j % 2 == 0 && decide (2 ≤ j) && decide (j ≤ 2 * n))) (hk : k < 2 * n + 2)
    (hassert : DrivesCs i 0 (frameCs i) nextMicroStep)
    (hbytes : ∀ j, j < n → (∃ b, QueuesByte i (2 * j + 1) b) ∧ AwaitsByte i (2 * j + 2))
    (hrelease : DrivesCs i (2 * n + 1) (!frameCs i) (atEnd len)) : FrameMicroStep i k := by
  rcases Nat.eq_zero_or_pos k with rfl | hpos
  · exact .assert rfl (by omega) hassert
  · obtain ⟨j, hj⟩ : ∃ j, k = 2 * j + 1 ∨ k = 2 * j + 2 := ⟨(k - 1) / 2, by omega⟩
    rcases Nat.lt_or_ge j n with hjn | hjn
    · obtain ⟨⟨b, hq⟩, hw⟩ := hbytes j hjn
      rcases hj with rfl | rfl
      · exact .queue (by omega) hq (by simp [hawait]) (by simp [hawait]; omega)
      · exact .await hw (by simp [hawait]; omega) (by simp [hawait]; omega)
    · obtain rfl : k = 2 * n + 1 := by omega
      exact .release hn.symm (by simp [hawait]) hrelease fun _ => ⟨rfl, rfl, rfl, rfl, rfl⟩

theorem frameMicroStep_readRegister {a : Byte} {k : Nat} (hk : k < 12) : FrameMicroStep (.readRegister a) k := by
  obtain ⟨-, h0, h1, h2, h3, h4, h5, h6, h7, h8, h9, h10, h11⟩ :=
    readSteps_of_carrier (i := .readRegister a) rfl
  interval_cases k
  · exact .assert rfl (by simp [microSteps]) h0
  · exact .queue (by decide) h1 rfl rfl
  · exact .await h2 rfl rfl
  · exact .queue (by decide) h3 rfl rfl
  · exact .await h4 rfl rfl
  · exact .queue (by decide) h5 rfl rfl
  · exact .await h6 rfl rfl
  · exact .capture (by decide) (by simp [microSteps]) h7 rfl rfl fun _ _ => ⟨_, _, rfl⟩
  · exact .queue (by decide) h8 rfl rfl
  · exact .await h9 rfl rfl
  · exact .capture (by decide) (by simp [microSteps]) h10 rfl rfl fun _ _ => ⟨_, _, rfl⟩
  · exact .release rfl rfl h11 fun _ => ⟨rfl, rfl, rfl, rfl, rfl⟩

theorem frameMicroStep_writeRegister {a : Byte} {v : Half} {k : Nat} (hk : k < 10) :
    FrameMicroStep (.writeRegister a v) k := by
  obtain ⟨-, h0, h1, h2, h3, h4, h5, h6, h7, h8, h9⟩ := writeSteps_of_carrier (i := .writeRegister a v) rfl
  refine frameMicroStep_of_bytes (n := 4) rfl (fun _ => rfl) hk h0 (fun j hj => ?_) h9
  interval_cases j
  · exact ⟨⟨_, h1⟩, h2⟩
  · exact ⟨⟨_, h3⟩, h4⟩
  · exact ⟨⟨_, h5⟩, h6⟩
  · exact ⟨⟨_, h7⟩, h8⟩

theorem frameMicroStep_sendCommandSequence {b0 b1 b2 b3 b4 b5 b6 b7 : Byte} {k : Nat} (hk : k < 18) :
    FrameMicroStep (.sendCommandSequence b0 b1 b2 b3 b4 b5 b6 b7) k := by
  obtain ⟨-, h0, hbytes, h17⟩ :=
    sendSteps_of_carrier (i := .sendCommandSequence b0 b1 b2 b3 b4 b5 b6 b7) rfl
  refine frameMicroStep_of_bytes (n := 8) rfl (fun _ => rfl) hk h0 (fun j hj => ?_) h17
  obtain ⟨hq, hw⟩ := hbytes j _ (List.getElem?_eq_getElem hj)
  exact ⟨⟨_, hq⟩, hw⟩

/-! ### The transfer operations keep the invariant (41_serial.md R181, R196 to R199) -/

/-- Inside a frame the link is ready and its port master with chip-select an output; a transfer is in flight only where
it is awaited; and chip-select is asserted from the first micro-step on. -/
theorem linkAt_frame_iff {pin : Fin 32} {i : Instr} {k : Nat} {q : SeqState} {r : Ser} (hi : sendsFrame i = true)
    (hl : r.linkState = .l1Ready) :
    LinkAt pin (some (i, k)) .run q r ↔
      (q = .s5Done ∧ r.spcr = 0x20#8 ∧ csBit pin r.iodir0 = true) ∧ r.wcol = false ∧
        (if awaiting i k = true then r.busy = !r.spif ∧ r.spifArmed = false
          else r.busy = false ∧ r.spifArmed = r.spif) ∧
        (k ≠ 0 → csBit pin r.iolatch0 = frameCs i) := by
  constructor
  · rintro ⟨hready, -, hwcol, htransfer, hcs, -⟩
    exact ⟨hready hl, hwcol, by simpa using htransfer (by decide), hcs i k rfl hi⟩
  · rintro ⟨hready, hwcol, htransfer, hcs⟩
    refine ⟨fun _ => hready, fun hl' => ?_, hwcol, fun _ => by simpa using htransfer, ?_, ?_⟩
    · cases hl.symm.trans hl'
    · rintro _ _ ⟨⟩ -
      exact hcs
    · rintro _ _ ⟨⟩
      cases hi

theorem nothingPending_frame {i : Instr} (hi : sendsFrame i = true) (k : Nat) : NothingPending i k := by
  cases i with
  | clkConfigure | clkEnable | clkAwaitLock | clkSwitch | clkTuneMem | busConfig => cases hi
  | _ => exact ⟨rfl, rfl, rfl⟩

theorem awaiting_start (i : Instr) : awaiting i 0 = false := by cases i <;> rfl

theorem awaiting_one (i : Instr) : awaiting i 1 = false := by cases i <;> rfl

/-- No operation ends with an await. -/
theorem awaiting_lt {i : Instr} {k : Nat} (ha : awaiting i k = true) : k + 1 < microSteps i := by
  cases i <;> simp [awaiting, microSteps] at ha ⊢ <;> omega

section Frame

variable {i : Instr} {s t : State} (h : BlockInv s) (hr : Runs i s) (hi : sendsFrame i = true)
  (hp : precondition i s = true)
include hi hp

theorem linkState_of_precondition : s.ser.linkState = .l1Ready := by
  rw [precondition_of_sendsFrame hi, linkReady] at hp
  simp only [Bool.and_eq_true, beq_iff_eq] at hp
  obtain ⟨-, hl⟩ := hp
  exact hl

include h hr

/-- A micro-step of a frame that is not its last: its access aborts the feed, which is idle, and leaves the port's
configuration and a transfer state that fits the next micro-step. -/
theorem placeInv_frame_next (hlt : s.ctrl.mpc + 1 < microSteps i) (hclk : t.clk = s.clk.disarm)
    (hwcol : t.ser.wcol = false)
    (htransfer : if awaiting i (s.ctrl.mpc + 1) = true then t.ser.busy = !t.ser.spif ∧ t.ser.spifArmed = false
      else t.ser.busy = false ∧ t.ser.spifArmed = t.ser.spif)
    (hcs : csBit s.setup.params.csPin t.ser.iolatch0 = frameCs i) (hspcr : t.ser.spcr = s.ser.spcr := by rfl)
    (hdir : t.ser.iodir0 = s.ser.iodir0 := by rfl) (hstate : t.ser.linkState = s.ser.linkState := by rfl)
    (hstatus : t.ctrl.status = s.ctrl.status := by rfl) (hpc : t.ctrl.opPc = s.ctrl.opPc := by rfl)
    (hmpc : t.ctrl.mpc = s.ctrl.mpc + 1 := by rfl) (hsetup : t.setup = s.setup := by rfl)
    (hfault : t.env.fault = s.env.fault := by rfl) : PlaceInv t := by
  have hl := linkState_of_precondition hi hp
  have hnone := nothingPending_frame hi
  obtain ⟨⟨hdone, hmaster, hout⟩, -⟩ := (linkAt_frame_iff hi hl).mp (hr.linkAt h)
  have hidle : ClockAt none t.clk := hclk ▸ (hr.clockAt_none h (hnone _)).disarm
  refine placeInv_at h hr hlt hp (((hnone _).clockAt_iff _).mpr hidle)
    ((linkAt_frame_iff hi (hstate.trans hl)).mpr ?_) hstatus hpc hmpc hsetup hfault (congrArg (·.seqState) hclk) hstate
  exact ⟨⟨hdone, hspcr.trans hmaster, hdir ▸ hout⟩, hwcol, htransfer, fun _ => hcs⟩

/-- A byte is queued only while no transfer is in flight and SPIF, if set, is armed; queueing clears it, so the await
that follows sees the SPIF of this byte alone (41_serial.md R181, R185, R199). -/
theorem FrameMicroStep.placeInv (hm : FrameMicroStep i s.ctrl.mpc) (he : exec i s = .next t) : PlaceInv t := by
  have hl := linkState_of_precondition hi hp
  obtain ⟨hready, hwcol, htransfer, hcs⟩ := (linkAt_frame_iff hi hl).mp (hr.linkAt h)
  cases hm with
  | assert hk hlt hd =>
    have ha : awaiting i s.ctrl.mpc = false := by rw [hk, awaiting_start]
    rw [if_neg (by simp [ha])] at htransfer
    obtain ⟨hbusy, harmed⟩ := htransfer
    cases he.symm.trans (hd s h.legal rfl hbusy fun _ => hp)
    refine placeInv_frame_next h hr hi hp hlt rfl hwcol ?_ (csLatch_drivenCs _ s)
    rw [if_neg (by simp [hk, awaiting_one])]
    exact ⟨hbusy, harmed⟩
  | queue hk hq ha ha' =>
    rw [if_neg (by simp [ha])] at htransfer
    obtain ⟨hbusy, harmed⟩ := htransfer
    cases he.symm.trans (hq s h.legal rfl hbusy)
    refine placeInv_frame_next h hr hi hp (Nat.lt_of_succ_lt (awaiting_lt ha')) rfl (by simp [hwcol]) ?_ (hcs hk)
    rw [if_pos ha']
    simp [harmed]
  | await hw ha ha' =>
    have hk : s.ctrl.mpc ≠ 0 := fun h0 => by rw [h0, awaiting_start] at ha; cases ha
    rw [if_pos ha] at htransfer
    obtain ⟨hbusy, harmed⟩ := htransfer
    have he' := he.symm.trans (hw s h.legal rfl)
    cases hspif : s.ser.spif with
    | true =>
      rw [hspif, if_pos rfl] at he'
      cases he'
      refine placeInv_frame_next h hr hi hp (awaiting_lt ha) rfl hwcol ?_ (hcs hk)
      rw [if_neg (by simp [ha'])]
      simp [afterSpsrRead, hbusy, hspif]
    | false =>
      rw [hspif, if_neg (by decide)] at he'
      cases he'
      refine placeInv_pollFailed h hr (.inl rfl) hp (nothingPending_frame hi _) rfl ?_ ⟨rfl, rfl, rfl⟩
      refine (linkAt_frame_iff (r := (afterSpsrRead s).ser) hi hl).mpr ⟨hready, hwcol, ?_, hcs⟩
      rw [if_pos ha]
      simp [afterSpsrRead, hbusy, hspif, harmed, hwcol]
  | capture hk hlt hc ha ha' hdst =>
    rw [if_neg (by simp [ha])] at htransfer
    obtain ⟨hbusy, harmed⟩ := htransfer
    have he' := he.symm.trans (hc s h.legal rfl)
    obtain ⟨x, y, hd⟩ := hdst s.ser.spdrRx
      { s.ctrl with t := s.setup.params.profile.spdr.read s.ser.spdrRx, mpc := s.ctrl.mpc + 1 }
    rw [hd] at he'
    cases he'
    refine placeInv_frame_next h hr hi hp hlt rfl (by simp [hwcol]) ?_ (hcs hk)
    rw [if_neg (by simp [ha'])]
    simp [hbusy, harmed]
  | @release after hlast ha hd hafter =>
    rw [if_neg (by simp [ha])] at htransfer
    obtain ⟨hbusy, harmed⟩ := htransfer
    have he' : exec i s = .next (after (drivenCs (!frameCs i) s)) := hd s h.legal rfl hbusy fun _ => hp
    cases he.symm.trans he'
    obtain ⟨hmpc, hclk, hser, hsetup, hfault⟩ := hafter (drivenCs (!frameCs i) s)
    have hidle := (hr.clockAt_none h (nothingPending_frame hi _)).disarm
    refine placeInv_end h hr (hclk ▸ hidle) ?_ hmpc hsetup hfault
    rw [hclk, hser]
    exact ⟨fun _ => hready, fun hl' => absurd (hl.symm.trans hl') (by decide), hwcol, fun _ => ⟨hbusy, harmed⟩, nofun,
      nofun⟩

end Frame

/-! ### Every step keeps the invariant -/

/-- Each of the nine host operations, begun in order or past its first micro-step; no program runs a wire frame
(30_encoding.md R105). -/
theorem exec_placeInv {i : Instr} {s t : State} (h : BlockInv s) (hr : Runs i s) (he : exec i s = .next t) :
    PlaceInv t := by
  by_cases hc : s.ctrl.mpc = 0 ∧ precondition i s = false
  · obtain ⟨h0, hp⟩ := hc
    cases he.symm.trans (outOfOrderFaults i s h0 hp)
    exact placeInv_order h hr h0
  · have hp : precondition i s = true := hr.precondition h fun h0 => by simpa [h0] using hc
    have hk := hr.mpc_lt h
    cases i with
    | clkConfigure m p => exact clkConfigure_placeInv h hr hp he
    | clkEnable => exact clkEnable_placeInv h hr hp he
    | clkAwaitLock => exact clkAwaitLock_placeInv h hr hp he
    | clkSwitch => exact clkSwitch_placeInv h hr hp he
    | clkTuneMem n => exact clkTuneMem_placeInv h hr hp he
    | busConfig d => exact busConfig_placeInv h hr hp he
    | readRegister a => exact (frameMicroStep_readRegister hk).placeInv h hr rfl hp he
    | writeRegister a v => exact (frameMicroStep_writeRegister hk).placeInv h hr rfl hp he
    | sendCommandSequence => exact (frameMicroStep_sendCommandSequence hk).placeInv h hr rfl hp he
    | sciWriteFrame | sciReadFrame | sdiCommandFrame | sineTestCommand =>
      exact absurd hr.isOperation Bool.false_ne_true

/-- Words that spell no operation (30_encoding.md R107): CTRL was at no place of an operation. -/
theorem placeInv_illegal {s : State} (h : BlockInv s) {why : Reject} (hd : decode (fetch s) = .reject why) :
    PlaceInv (s.raise .illegalOp) := by
  obtain ⟨-, -, -, -, hclk, hlink, -⟩ := h
  have hpos : position s = none := by simp [position, opAt, hd]
  rw [ClockInv, hpos] at hclk
  exact placeInv_raise (.inl rfl) hclk hlink

theorem ctrlStep_placeInv {s t : State} (h : BlockInv s) (hstep : ctrlStep s = .next t) : PlaceInv t := by
  by_cases hrun : s.ctrl.status = .run
  · cases hd : decode (fetch s) with
    | ok i rest =>
      exact exec_placeInv h (runs_of_decode hrun hd) ((ctrlStep_of_decode hrun hd).symm.trans hstep)
    | reject why =>
      cases (ctrlStep_of_reject hrun hd).symm.trans hstep
      exact placeInv_illegal h hd
  · have hidle : ctrlStep s = .next s := by simp [ctrlStep, ctrlEnabled, hrun]
    cases hidle.symm.trans hstep
    obtain ⟨-, -, -, hplace⟩ := h
    exact hplace

theorem agentStep_placeInv {s t : State} {a : Agent} (h : BlockInv s) (ha : MayMove s a)
    (hstep : agentStep a s = .next t) : PlaceInv t := by
  cases a with
  | pll =>
    cases hstep
    exact pllStep_placeInv h ha
  | shifter =>
    cases hstep
    exact shifterStep_placeInv h ha
  | ctrl => exact ctrlStep_placeInv h hstep

/-- A step is the step of an agent that may move, with the scheduling fields brought up to date. -/
theorem step_moved {s t : State} (h : step s = .next t) :
    ∃ a u, mover s = some a ∧ agentStep a s = .next u ∧ t = { u with moves := movesAfter a s } := by
  cases hm : mover s with
  | none =>
    obtain ⟨r, hr⟩ := halted_faults s
    cases h.symm.trans ((step_of_no_mover hm).trans hr)
  | some a =>
    rw [step_of_mover hm] at h
    cases ha : agentStep a s with
    | next u =>
      rw [ha] at h
      cases h
      exact ⟨a, u, rfl, ha, rfl⟩
    | fault | refused =>
      rw [ha] at h
      cases h

/-- Settles O54: whichever agent moves leaves CTRL, the clock unit and the link in step, and no place of CTRL's depends
on the scheduling fields. -/
theorem everyStepKeepsBlockInv : Obligations.EveryStepKeepsBlockInv := by
  unfold Obligations.EveryStepKeepsBlockInv
  intro s t h hstep
  obtain ⟨a, u, hm, hu, rfl⟩ := step_moved hstep
  have hplace : PlaceInv u := agentStep_placeInv h (mover_mayMove hm) hu
  exact h.of_placeInv hstep hplace

/-! ### The wait for lock (R144, R161) -/

/-- CLK_AWAIT_LOCK in order, with a fair PLL in band, no poll budget and every choice of an agent free. -/
structure AwaitsLock (s : State) : Prop where
  inv : BlockInv s
  runs : Runs .clkAwaitLock s
  enabled : s.clk.seqState = .s2Enabled
  unbounded : s.setup.params.pollBudget = none
  fair : s.setup.params.lockFair = true
  band : inBand s.setup.params s.clk.pllcfgAct = true
  free : s.moves.script = []

section Await

variable {s : State} (h : AwaitsLock s)
include h

theorem AwaitsLock.mpc : s.ctrl.mpc = 0 := Nat.lt_one_iff.mp (h.runs.mpc_lt h.inv)

/-- No transfer is in flight, so the SHIFTER cannot move. -/
theorem AwaitsLock.shifter_idle : shifterEnabled s = false := by
  rw [shifterEnabled, h.runs.not_busy h.inv rfl, Bool.false_and]

/-- Without a lock the PLL could move, since PLLE is active from S2_ENABLED on (R143). -/
theorem AwaitsLock.pll_enabled (hlock : s.clk.plock = false) : pllEnabled s = true := by
  obtain ⟨-, -, -, hact, -⟩ := h.runs.clockAt h.inv
  simp [pllEnabled, hact, h.enabled, hlock, SeqState.rank]

/-- With the lock CTRL is the only agent that can move, and its read completes the operation. -/
theorem AwaitsLock.step_locked (hlock : s.clk.plock = true) :
    ∃ t, step s = .next t ∧ t.clk.plock = true ∧ t.clk.seqState = .s3Locked ∧ t.ctrl.opPc = s.ctrl.opPc + 1 := by
  have hquiet : hardwareEnabled s = false := by simp [hardwareEnabled, pllEnabled, hlock, h.shifter_idle]
  obtain ⟨-, hlocked, -⟩ := clkAwaitLockEffect s h.inv.legal h.mpc
  obtain ⟨rest, hd⟩ := h.runs.decode_fetch
  have hstep := stepRunsDecoded s _ rest h.runs.status_run (.inl hquiet) hd
  rw [hlocked h.enabled hlock] at hstep
  exact ⟨_, hstep, hlock, rfl, rfl⟩

/-- Without the lock PLL or CTRL moves, and the PLL does if it has been passed over too often (log 5). -/
theorem AwaitsLock.mover_unlocked (hlock : s.clk.plock = false) :
    mover s = some .pll ∨ mover s = some .ctrl ∧ s.moves.pllWait < Config.lockPatience := by
  have hpll := h.pll_enabled hlock
  have hover : shiftOverdue s = false := by simp [shiftOverdue, h.shifter_idle]
  by_cases hdue : Config.lockPatience ≤ s.moves.pllWait
  · exact .inl (by simp [mover, hardwareEnabled, lockOverdue, hpll, h.free, h.fair, h.band, hdue])
  · have hmover : mover s = some (grant s (Config.freeAgent s.moves.tick)) := by
      simp [mover, hardwareEnabled, lockOverdue, hpll, h.free, hdue, hover]
    rw [hmover]
    cases Config.freeAgent s.moves.tick with
    | pll => exact .inl (by simp [grant, hpll])
    | shifter => exact .inr ⟨by simp [grant, h.shifter_idle], Nat.lt_of_not_le hdue⟩
    | ctrl => exact .inr ⟨rfl, Nat.lt_of_not_le hdue⟩

/-- A step that leaves what CTRL runs, the sequencer and the active configuration leaves the wait. -/
theorem AwaitsLock.of_step {t : State} (hstep : step s = .next t) (hstatus : t.ctrl.status = s.ctrl.status)
    (hpc : t.ctrl.opPc = s.ctrl.opPc) (hsetup : t.setup = s.setup) (hseq : t.clk.seqState = s.clk.seqState)
    (hcfg : t.clk.pllcfgAct = s.clk.pllcfgAct) (hscript : t.moves.script = s.moves.script.tail) : AwaitsLock t where
  inv := everyStepKeepsBlockInv s t h.inv hstep
  runs := h.runs.congr hstatus hpc hsetup
  enabled := hseq.trans h.enabled
  unbounded := hsetup ▸ h.unbounded
  fair := hsetup ▸ h.fair
  band := by rw [hsetup, hcfg]; exact h.band
  free := by rw [hscript, h.free]; rfl

/-- The PLL's step gives the lock, and CTRL still waits. -/
theorem AwaitsLock.step_pll (hm : mover s = some .pll) :
    ∃ t, step s = .next t ∧ AwaitsLock t ∧ t.clk.plock = true ∧ t.ctrl.opPc = s.ctrl.opPc :=
  have hstep : step s = .next { pllStep s with moves := movesAfter .pll s } := step_of_mover hm
  ⟨_, hstep, h.of_step hstep rfl rfl rfl rfl rfl rfl, rfl, rfl⟩

/-- A failed read of CTRL's without a budget spins, and the PLL has been passed over once more. -/
theorem AwaitsLock.step_ctrl (hm : mover s = some .ctrl) (hlock : s.clk.plock = false) :
    ∃ t, step s = .next t ∧ AwaitsLock t ∧ t.ctrl.opPc = s.ctrl.opPc ∧
      t.moves.pllWait = s.moves.pllWait + 1 := by
  obtain ⟨-, -, hspin⟩ := clkAwaitLockEffect s h.inv.legal h.mpc
  obtain ⟨rest, hd⟩ := h.runs.decode_fetch
  have hread := (ctrlStep_of_decode h.runs.status_run hd).trans (hspin h.enabled hlock)
  rw [afterFailedRead, if_neg (by simp [h.unbounded])] at hread
  have hstep := step_of_mover hm
  rw [agentStep, hread] at hstep
  refine ⟨_, hstep, h.of_step hstep rfl rfl rfl rfl rfl rfl, rfl, ?_⟩
  simp [movesAfter, waited, h.pll_enabled hlock]

end Await

theorem coreRun_succ {s t : State} (h : step s = .next t) (n : Nat) :
    Host.Core.run core (n + 1) s = Host.Core.run core n t := by
  have hcore : core.step s = .next t := h
  simp [Host.Core.run, hcore]

/-- The wait has ended with the lock after at most `n` steps. -/
def LocksWithin (n : Nat) (s : State) : Prop :=
  ∃ m t, m ≤ n ∧ Host.Core.run core m s = .next t ∧ t.clk.plock = true ∧ t.clk.seqState = .s3Locked ∧
    t.ctrl.opPc = s.ctrl.opPc + 1

theorem LocksWithin.of_step {n : Nat} {s t : State} (hstep : step s = .next t) (hpc : t.ctrl.opPc = s.ctrl.opPc)
    (ht : LocksWithin n t) : LocksWithin (n + 1) s := by
  obtain ⟨m, u, hm, hrun, hlock, hseq, hend⟩ := ht
  exact ⟨m + 1, u, Nat.succ_le_succ hm, (coreRun_succ hstep m).trans hrun, hlock, hseq, by rw [hend, hpc]⟩

theorem AwaitsLock.locksWithin_one {s : State} (h : AwaitsLock s) (hlock : s.clk.plock = true) : LocksWithin 1 s := by
  obtain ⟨t, hstep, hlock', hseq, hpc⟩ := h.step_locked hlock
  exact ⟨1, t, le_rfl, coreRun_succ hstep 0, hlock', hseq, hpc⟩

theorem LocksWithin.mono {m n : Nat} {s : State} (h : LocksWithin m s) (hmn : m ≤ n) : LocksWithin n s := by
  obtain ⟨k, t, hk, hrest⟩ := h
  exact ⟨k, t, hk.trans hmn, hrest⟩

/-- The lock is there or comes with this step, or CTRL has read once more in vain. -/
theorem AwaitsLock.locks_or_waits {s : State} (h : AwaitsLock s) :
    LocksWithin 2 s ∨ s.moves.pllWait < Config.lockPatience ∧ ∃ t, step s = .next t ∧ AwaitsLock t ∧
      t.ctrl.opPc = s.ctrl.opPc ∧ t.moves.pllWait = s.moves.pllWait + 1 := by
  cases hlock : s.clk.plock with
  | true => exact .inl ((h.locksWithin_one hlock).mono one_le_two)
  | false =>
    rcases h.mover_unlocked hlock with hm | ⟨hm, hwait⟩
    · obtain ⟨t, hstep, ht, hlock', hpc⟩ := h.step_pll hm
      exact .inl (.of_step hstep hpc (ht.locksWithin_one hlock'))
    · exact .inr ⟨hwait, h.step_ctrl hm hlock⟩

/-- Each failed read uses up one of the steps that a fair PLL may be passed over. -/
theorem AwaitsLock.locksWithin (d : Nat) {s : State} (h : AwaitsLock s)
    (hd : Config.lockPatience - s.moves.pllWait = d) : LocksWithin (d + 2) s := by
  induction d generalizing s with
  | zero =>
    rcases h.locks_or_waits with hlocks | ⟨hwait, -⟩
    · exact hlocks
    · omega
  | succ d ih =>
    rcases h.locks_or_waits with hlocks | ⟨-, t, hstep, ht, hpc, hwait⟩
    · exact hlocks.mono (by omega)
    · exact .of_step hstep hpc (ih ht (by omega))

/-- Settles O59: the PLL is passed over at most `Config.lockPatience` times, then locks, and CTRL's next read sees
it. -/
theorem fairLockEndsTheWait : Obligations.FairLockEndsTheWait := by
  unfold Obligations.FairLockEndsTheWait
  intro s hinv hr hs hbudget hfair hband hscript
  exact AwaitsLock.locksWithin _ ⟨hinv, hr, hs, hbudget, hfair, hband, hscript⟩ rfl

end Sys2Proof.Machine

/-! PROOFS. The serial link (41_serial.md): its registers (R182 to R191) and the SHIFTER's step (R186), the operations one
micro-step at a time (R192 to R195) and what they leave alone, the frame and the echo double under every order of the
agents (R76, R189, R196 to R201), and the wait for a byte (R187). -/

namespace Sys2Proof.Machine

/-! ### The serial registers and the SHIFTER's step (R182 to R191) -/

/-- Given the step by the script an enabled SHIFTER takes it (log 4). -/
theorem mover_eq_shifter {s : State} (h : shifterEnabled s = true) (hs : s.moves.script.head? = some .shifter) :
    mover s = some .shifter := by
  obtain ⟨rest, hscript⟩ := List.head?_eq_some_iff.mp hs
  simp [mover, hardwareEnabled, h, hscript, grant]

/-- Settles O11: the step is written as R186 says, and the script's next agent is granted it since it is enabled. -/
theorem shifterStepCompletesTransfer : Obligations.ShifterStepCompletesTransfer := by
  unfold Obligations.ShifterStepCompletesTransfer
  exact ⟨fun _ => rfl, fun _ => ⟨_, _, rfl, rfl⟩, fun s h hs => step_of_mover (mover_eq_shifter h hs)⟩

/-- An SPDR write with no transfer in flight starts one (R182). -/
theorem spdrWrite_of_idle {s : State} (h : s.ser.busy = false) (b : Byte) :
    spdrWrite b s = .ok () { s with ser := s.ser.clearArmed.queue b } := by
  simp [spdrWrite, h]

/-- An SPDR write with a transfer in flight collides with it (R182; log 17). -/
theorem spdrWrite_of_busy {s : State} (h : s.ser.busy = true) (b : Byte) :
    spdrWrite b s = .bad .writeCollision { s with ser := { s.ser.clearArmed with wcol := true } } := by
  simp [spdrWrite, h]

/-- Settles O25: SPDR accepts every word, and the clearing rule comes before the collision check. -/
theorem spdrWriteStartsOrCollides : Obligations.SpdrWriteStartsOrCollides := by
  unfold Obligations.SpdrWriteStartsOrCollides
  intro v s hP hb
  have hvalue : s.setup.params.profile.spdr.value 8 v = v.extractLsb' 0 8 := by
    rw [hP, RegLayout.value_range rfl (by decide), BitVec.setWidth_eq_extractLsb' (by decide)]
  have hwrite : memWrite Profile.lpc2000.spdr.addr 4 v s = feedAbort .spdr (spdrWrite (v.extractLsb' 0 8) s) := by
    have haddr := (Profile.legal_of_lpc2000 hP hb).memWrite_addr .spdr v
    rw [hP] at haddr
    rw [← hvalue]
    exact haddr
  refine ⟨fun hidle => ?_, fun hbusy => ?_⟩
  · rw [hwrite, spdrWrite_of_idle hidle, Ser.clearArmed_eq]
    exact ⟨_, rfl, rfl⟩
  · rw [hwrite, spdrWrite_of_busy hbusy, Ser.clearArmed_eq]
    exact ⟨_, rfl, rfl⟩

/-- Settles O26: the reads' side effects are the arming and the clearing rule, and the feed abort is none of SER's. -/
theorem serialReadsArmAndClear : Obligations.SerialReadsArmAndClear := by
  unfold Obligations.SerialReadsArmAndClear
  intro s hl
  exact ⟨⟨_, hl.memRead_addr .spsr, rfl⟩, _, hl.memRead_addr .spdr, s.ser.clearArmed_eq⟩

section Latch

variable {s : State} {x latch : Word}

/-- In flight chip-select is fixed: a latch write that has its bit is refused (R191). -/
theorem latchWrite_refused (hx : csBit s.setup.params.csPin x = true) (hb : s.ser.busy = true) :
    latchWrite x latch s = .bad .csInFlight s := by
  simp [latchWrite, hx, hb]

/-- With the chip-select bit and no transfer in flight the write emits the latch's new level (R190). -/
theorem latchWrite_selects (hx : csBit s.setup.params.csPin x = true) (hb : s.ser.busy = false) :
    latchWrite x latch s = .ok () (({ s with ser := { s.ser with iolatch0 := latch } } : State).emit
      (.cs (csBit s.setup.params.csPin latch) s.ctrl.opPc)) := by
  unfold latchWrite
  rw [if_pos hx, if_neg (by simp [hb])]
  rfl

/-- Without the chip-select bit the write emits nothing (R190). -/
theorem latchWrite_other (hx : csBit s.setup.params.csPin x = false) :
    latchWrite x latch s = .ok () { s with ser := { s.ser with iolatch0 := latch } } := by
  unfold latchWrite
  rw [if_neg (by simp [hx])]

end Latch

/-- Settles O27: IOSET0 and IOCLR0 accept every word and write the latch, and IODIR0 stores its value. -/
theorem latchWritesDriveChipSelect : Obligations.LatchWritesDriveChipSelect := by
  unfold Obligations.LatchWritesDriveChipSelect
  refine ⟨fun v x s r latch hl hx hr => ?latch, fun v s hl => ⟨_, hl.memWrite_addr .iodir0 v, rfl, rfl⟩, ?word⟩
  case latch =>
    have hwrite : memWrite (s.setup.params.profile.addr r) 4 v s = feedAbort r (latchWrite x latch s) := by
      rw [hl.memWrite_addr]
      rcases hr with ⟨rfl, rfl⟩ | ⟨rfl, rfl⟩ <;> rw [hx] <;> rfl
    have hr' : r ≠ .pllfeed := by rintro rfl; simp at hr
    refine ⟨fun hbit hbusy => ?_, fun hidle => ?_⟩
    · rw [latchWrite_refused hbit hbusy] at hwrite
      exact ⟨hwrite, fun k => by rw [microWrite, hwrite]; rfl⟩
    · cases hbit : csBit s.setup.params.csPin x with
      | true =>
        rw [latchWrite_selects hbit (hidle hbit), feedAbort, if_neg hr'] at hwrite
        exact ⟨_, hwrite, rfl, (congrArg (s.env.trace ++ ·) (if_pos hbit)).symm⟩
      | false =>
        rw [latchWrite_other hbit, feedAbort, if_neg hr'] at hwrite
        refine ⟨_, hwrite, rfl, ?_⟩
        rw [if_neg (by rw [← csBit, hbit]; decide), List.append_nil]
        rfl
  case word => rintro r v (rfl | rfl | rfl) <;> exact RegLayout.value_low _ v

/-! ### The operations, one micro-step at a time (R192 to R195) -/

/-- This hardware's pin 7 and serial pins have neighbouring fields in PINSEL0 (30_encoding.md R121). -/
theorem pinselValue_hardware (t : Word) :
    pinselValue Params.hardware t = (t &&& ~~~0x0000FF00#32) ||| 0x00001500#32 := by
  have hfield : Params.hardware.profile.pinField Params.hardware.csPin = 0x0000C000#32 := by decide
  have hgpio : Params.hardware.profile.gpioFunctions = 0#32 := rfl
  have hserial : Params.hardware.profile.serialPins = 0x00003F00#32 := rfl
  have hfunctions : (Params.hardware.profile.serialFunctions &&& 0x00003F00#32 : Word) = 0x00001500#32 := by decide
  have hfields : (~~~0x0000C000#32 &&& ~~~0x00003F00#32 : Word) = ~~~0x0000FF00#32 := by decide
  simp only [pinselValue, selectPins]
  rw [hfield, hgpio, hserial, hfunctions, BitVec.zero_and, BitVec.or_zero, BitVec.and_assoc, hfields]

/-- Settles O38: each micro-step is one access, which legal parameters let take effect, and CTRL's move. -/
theorem busConfigEffect : Obligations.BusConfigEffect := by
  unfold Obligations.BusConfigEffect
  refine ⟨by decide, pinselValue_hardware, ?pins, fun d s hl h8 h2 => ?steps⟩
  case pins => rintro r x (rfl | rfl) <;> exact ⟨RegLayout.value_low _ x, RegLayout.read_low _ x⟩
  case steps =>
    have hmicro := exec_of_operation (i := .busConfig d) (s := s) fun _ => rfl
    have hlater {k : Nat} (hk : s.ctrl.mpc = k) (hk0 : k ≠ 0) := hmicro fun h0 => absurd (hk.symm.trans h0) hk0
    refine ⟨fun h0 hne => ?order, fun h0 hseq hlink => ?first, fun hk => ?_, fun hk => ?_, fun hk => ?_,
      drivesCs_high (fun _ => rfl) fun _ _ hk => ?select, fun hk => ?_, fun hk => ?_⟩
    case order =>
      refine outOfOrderFaults _ s h0 ?_
      rcases hne with h | h <;> simp [precondition, h]
    case first =>
      have he := hmicro fun _ => by simp [precondition, hseq, hlink]
      simp only [h0] at he
      exact he.trans (microRead_eq hl _ _)
    case select =>
      simp only [hk]
      rfl
    all_goals
      have he := hlater hk (by decide)
      simp only [hk] at he
      refine he.trans ?_
    · exact microWrite_pinsel0 hl _ _
    · exact microWrite_spccr hl _ h8 h2
    · exact microWrite_spcr hl _
    · exact microRead_eq hl _ _
    · exact microWrite_iodir0 hl _ _

/-- Settles O39: READ_REGISTER is its own carrier. -/
theorem readRegisterEffect : Obligations.ReadRegisterEffect :=
  ⟨rfl, rfl, fun _ => readSteps_of_carrier rfl⟩

/-- Settles O40: WRITE_REGISTER is its own carrier. -/
theorem writeRegisterEffect : Obligations.WriteRegisterEffect :=
  ⟨rfl, fun _ _ => writeSteps_of_carrier rfl⟩

/-- Settles O41: SEND_COMMAND_SEQUENCE is its own carrier. -/
theorem sendCommandSequenceEffect : Obligations.SendCommandSequenceEffect :=
  fun _ _ _ _ _ _ _ _ => sendSteps_of_carrier rfl

/-! ### Accesses of the link, whether or not a transfer is in flight (R182, R190, R191) -/

section Accesses

variable {s : State} (hl : s.setup.params.Legal)
include hl

/-- In flight a write of the chip-select mask to either latch register is refused (R191). -/
theorem microWrite_csm_refused {r : Reg} (hr : r = .ioset0 ∨ r = .ioclr0) (k : State → State)
    (hb : s.ser.busy = true) :
    microWrite r ((s.setup.params.profile.layout r).word (csm s.setup.params.csPin)) k s =
      .next (s.raise .csInFlight) := by
  have hvalue := RegLayout.value_word (w := 32) (l := s.setup.params.profile.layout r)
    (by rcases hr with rfl | rfl <;> exact hl.profile.fits _ (Reg.mem_all _)) (csm s.setup.params.csPin)
  obtain ⟨hlatch, -⟩ := latchWritesDriveChipSelect
  have hrefused := fun latch h => (hlatch _ _ s r latch hl.profile hvalue.symm h).1 (csBit_csm _) hb
  rcases hr with rfl | rfl
  · exact (hrefused _ (.inl ⟨rfl, rfl⟩)).2 k
  · exact (hrefused _ (.inr ⟨rfl, rfl⟩)).2 k

/-- Driving chip-select takes effect, or is refused in flight. -/
theorem csHigh_cases (k : State → State) :
    csHigh k s = .next (k (drivenCs true s)) ∨ csHigh k s = .next (s.raise .csInFlight) := by
  cases hb : s.ser.busy with
  | false => exact .inl (csHigh_eq hl k hb)
  | true => exact .inr (microWrite_csm_refused hl (.inl rfl) k hb)

theorem csLow_cases (k : State → State) :
    csLow k s = .next (k (drivenCs false s)) ∨ csLow k s = .next (s.raise .csInFlight) := by
  cases hb : s.ser.busy with
  | false => exact .inl (csLow_eq hl k hb)
  | true => exact .inr (microWrite_csm_refused hl (.inr rfl) k hb)

/-- XFER.x0 starts the transfer, or collides with one in flight (log 17). -/
theorem xferSend_cases (tx : Byte) :
    xferSend tx s = .next (afterQueue tx s) ∨ xferSend tx s = .next
      (({ s with ser := { s.ser.clearArmed with wcol := true } } : State).disarm.raise .writeCollision) := by
  cases hb : s.ser.busy with
  | false =>
    refine .inl ?_
    rw [xferSend_eq hl tx hb, Ser.clearArmed_eq]
    rfl
  | true =>
    refine .inr ?_
    have hstore := spdrWrite_of_busy hb (s.setup.params.profile.spdr.value 8 (s.setup.params.profile.spdr.word tx))
    simp [xferSend, microWrite, memWrite_reg hl, regWrite, Reg.accepts, storeReg, hstore, feedAbort]

end Accesses

/-- Driving chip-select leaves every other pin's latch bit. -/
theorem getLsbD_drivenCs (level : Bool) (s : State) {k : Nat} (hk : k ≠ s.setup.params.csPin.val) :
    (drivenCs level s).ser.iolatch0.getLsbD k = s.ser.iolatch0.getLsbD k := by
  have hcsm : (csm s.setup.params.csPin).getLsbD k = false := by simp [getLsbD_csm, hk]
  cases level with
  | true =>
    refine (BitVec.getLsbD_or ..).trans ?_
    rw [hcsm, Bool.or_false]
  | false =>
    refine (BitVec.getLsbD_and ..).trans ?_
    rw [BitVec.getLsbD_not, hcsm]
    by_cases h32 : k < 32
    · simp [h32]
    · simp [h32, BitVec.getLsbD_of_ge _ _ (Nat.le_of_not_lt h32)]

/-! ### What the operations of the link leave alone -/

/-- What every micro-step of the link leaves: the clock unit but for the feed, the latch bit of every pin but
chip-select, DEV, the parameters and the scheduling fields. -/
structure LinkFrame (s t : State) : Prop where
  clk : ∃ f, t.clk = { s.clk with feedState := f }
  latch : ∀ k, k ≠ s.setup.params.csPin.val → t.ser.iolatch0.getLsbD k = s.ser.iolatch0.getLsbD k
  dev : t.env.dev = s.env.dev
  setup : t.setup = s.setup
  moves : t.moves = s.moves
  draws : t.draws = s.draws

/-- The results, in CTRL and in the log. -/
def SameResults (s t : State) : Prop := t.ctrl.result = s.ctrl.result ∧ t.env.results = s.env.results

/-- READ_REGISTER's captured bytes. -/
def SameCaptures (s t : State) : Prop := t.ctrl.hi = s.ctrl.hi ∧ t.ctrl.lo = s.ctrl.lo

/-- A micro-step that may change CTRL, the feed, the serial unit, the trace and the fault record only. -/
theorem linkFrame_of_latch {s t : State}
    (hlatch : ∀ k, k ≠ s.setup.params.csPin.val → t.ser.iolatch0.getLsbD k = s.ser.iolatch0.getLsbD k)
    (hclk : ∃ f, t.clk = { s.clk with feedState := f } := by exact ⟨_, rfl⟩) (hdev : t.env.dev = s.env.dev := by rfl)
    (hsetup : t.setup = s.setup := by rfl) (hmoves : t.moves = s.moves := by rfl)
    (hdraws : t.draws = s.draws := by rfl) : LinkFrame s t :=
  ⟨hclk, hlatch, hdev, hsetup, hmoves, hdraws⟩

/-- A meaning's next state is its micro-step's, or the order check's. -/
theorem micro_or_order {i : Instr} {micro : State → Out} (he : ∀ s, exec i s = operation i micro s) {s t : State}
    (h : exec i s = .next t) : micro s = .next t ∨ t = s.raise .order := by
  rcases operation_cases i micro s with ⟨e, -⟩ | ⟨e, -, -⟩
  · exact .inl (e.symm.trans ((he s).symm.trans h))
  · cases h.symm.trans ((he s).trans e)
    exact .inr rfl

/-! #### BUS_CONFIG (R192) -/

/-- The transfer state of the serial unit (R181 to R185). -/
def SameTransfer (r q : Ser) : Prop :=
  q.spdrTx = r.spdrTx ∧ q.spdrRx = r.spdrRx ∧ q.spif = r.spif ∧ q.wcol = r.wcol ∧ q.spifArmed = r.spifArmed ∧
    q.busy = r.busy

/-- The direction of every pin but chip-select, where t holds the word read from IODIR0. -/
def SameDirections (s t : State) : Prop :=
  s.ctrl.t = s.setup.params.profile.iodir0.read s.ser.iodir0 →
    ∀ k, k ≠ s.setup.params.csPin.val → t.ser.iodir0.getLsbD k = s.ser.iodir0.getLsbD k

/-- What a micro-step of BUS_CONFIG leaves. -/
structure BusFrame (s t : State) : Prop extends LinkFrame s t where
  transfer : SameTransfer s.ser t.ser
  directions : SameDirections s t
  results : SameResults s t
  captures : SameCaptures s t
  pollCount : t.ctrl.pollCount = s.ctrl.pollCount

section BusConfig

variable {s t : State}

/-- A micro-step of BUS_CONFIG that does not write IODIR0. -/
theorem busFrame_of_latch
    (hlatch : ∀ k, k ≠ s.setup.params.csPin.val → t.ser.iolatch0.getLsbD k = s.ser.iolatch0.getLsbD k)
    (hlink : (∀ k, k ≠ s.setup.params.csPin.val → t.ser.iolatch0.getLsbD k = s.ser.iolatch0.getLsbD k) →
      LinkFrame s t := by exact linkFrame_of_latch)
    (htransfer : SameTransfer s.ser t.ser := by exact ⟨rfl, rfl, rfl, rfl, rfl, rfl⟩)
    (hdir : t.ser.iodir0 = s.ser.iodir0 := by rfl) (hresults : SameResults s t := by exact ⟨rfl, rfl⟩)
    (hcaptures : SameCaptures s t := by exact ⟨rfl, rfl⟩) (hpoll : t.ctrl.pollCount = s.ctrl.pollCount := by rfl) :
    BusFrame s t :=
  ⟨hlink hlatch, htransfer, fun _ _ _ => by rw [hdir], hresults, hcaptures, hpoll⟩

theorem busFrame_raise (c : Code) (s : State) : BusFrame s (s.raise c) := busFrame_of_latch fun _ _ => rfl

variable (hl : s.setup.params.Legal)
include hl

/-- A write of SPCCR is refused or stores a value; legal parameters do not say which for an odd or small operand. -/
theorem microWrite_spccr_cases (v : Word) (k : State → State) :
    (∃ x, microWrite .spccr v k s = .next (k ({ s with ser := { s.ser with spccr := x } } : State).disarm)) ∨
      microWrite .spccr v k s = .next (s.raise .unsupportedAccess) := by
  cases ha : Reg.spccr.accepts s.setup.params.profile v with
  | true => exact .inl ⟨_, microWrite_ok hl k ha (by decide) rfl⟩
  | false => exact .inr (microWrite_refused hl k ha)

/-- The write of IODIR0 sets the chip-select bit in the value that t spells. -/
theorem busFrame_iodir0 :
    BusFrame s (({ s with ser := { s.ser with
      iodir0 := s.setup.params.profile.iodir0.value 32 s.ctrl.t ||| csm s.setup.params.csPin } } :
        State).disarm.finishBusConfig) := by
  refine ⟨linkFrame_of_latch fun _ _ => rfl, ⟨rfl, rfl, rfl, rfl, rfl, rfl⟩, fun ht k hk => ?_, ⟨rfl, rfl⟩, ⟨rfl, rfl⟩,
    rfl⟩
  refine (BitVec.getLsbD_or ..).trans ?_
  rw [ht, RegLayout.value_read hl.profile.iodir0, getLsbD_csm, decide_eq_false hk, Bool.or_false]

theorem busConfig_frame {d : Byte} (h : exec (.busConfig d) s = .next t) : BusFrame s t := by
  have hk : s.ctrl.mpc < 7 := mpc_lt_of_exec hl h
  rcases micro_or_order (i := .busConfig d) (fun _ => rfl) h with hmicro | rfl
  · interval_cases hm : s.ctrl.mpc
    · cases hmicro.symm.trans (microRead_eq hl _ _)
      exact busFrame_of_latch fun _ _ => rfl
    · cases hmicro.symm.trans (microWrite_pinsel0 hl _ _)
      exact busFrame_of_latch fun _ _ => rfl
    · rcases microWrite_spccr_cases hl (s.setup.params.profile.spccr.word d) State.advance with ⟨x, e⟩ | e
      · cases hmicro.symm.trans e
        exact busFrame_of_latch fun _ _ => rfl
      · cases hmicro.symm.trans e
        exact busFrame_raise _ s
    · cases hmicro.symm.trans (microWrite_spcr hl _)
      exact busFrame_of_latch fun _ _ => rfl
    · rcases csHigh_cases hl State.advance with e | e
      · cases hmicro.symm.trans e
        exact busFrame_of_latch fun _ hk => getLsbD_drivenCs true s hk
      · cases hmicro.symm.trans e
        exact busFrame_raise _ s
    · cases hmicro.symm.trans (microRead_eq hl _ _)
      exact busFrame_of_latch fun _ _ => rfl
    · cases hmicro.symm.trans (microWrite_iodir0 hl _ _)
      exact busFrame_iodir0 hl
  · exact busFrame_raise _ s

end BusConfig

/-- Settles O47: each micro-step has one access, of which only the latch's and IODIR0's touch a pin. -/
theorem busConfigFrame : Obligations.BusConfigFrame := by
  unfold Obligations.BusConfigFrame
  intro d s t hl h
  obtain ⟨⟨hclk, hlatch, hdev, hsetup, hmoves, hdraws⟩, ⟨htx, hrx, hspif, hwcol, harmed, hbusy⟩, hdir,
    ⟨hresult, hresults⟩, ⟨hhi, hlo⟩, hpoll⟩ := busConfig_frame hl h
  exact ⟨hclk, htx, hrx, hspif, hwcol, harmed, hbusy, hlatch, hdir, hresults, hdev, hsetup, hmoves, hdraws, hhi, hlo,
    hresult, hpoll⟩

/-! #### The operations that send a frame, and the frames (R193 to R195) -/

/-- The fields of the serial unit that CTRL's part of a transfer leaves: the port's configuration, the pins' functions
and directions, the received byte and the link's state. -/
def SamePort (r q : Ser) : Prop :=
  q.pinsel0 = r.pinsel0 ∧ q.spcr = r.spcr ∧ q.spccr = r.spccr ∧ q.spdrRx = r.spdrRx ∧ q.iodir0 = r.iodir0 ∧
    q.linkState = r.linkState

/-- What every micro-step of a frame leaves. -/
structure TransferFrame (s t : State) : Prop extends LinkFrame s t where
  port : SamePort s.ser t.ser

/-- What a micro-step of a frame leaves that neither captures a byte nor ends a read. -/
structure QuietFrame (s t : State) : Prop extends TransferFrame s t where
  results : SameResults s t
  captures : SameCaptures s t

theorem transferFrame_of_latch {s t : State}
    (hlatch : ∀ k, k ≠ s.setup.params.csPin.val → t.ser.iolatch0.getLsbD k = s.ser.iolatch0.getLsbD k)
    (hlink : (∀ k, k ≠ s.setup.params.csPin.val → t.ser.iolatch0.getLsbD k = s.ser.iolatch0.getLsbD k) →
      LinkFrame s t := by exact linkFrame_of_latch)
    (hport : SamePort s.ser t.ser := by exact ⟨rfl, rfl, rfl, rfl, rfl, rfl⟩) : TransferFrame s t :=
  ⟨hlink hlatch, hport⟩

/-- `k` moves CTRL on and changes nothing but its place. -/
def OnlyMoves (k : State → State) : Prop :=
  ∀ u, ∃ pc mpc status, k u = { u with ctrl := { u.ctrl with opPc := pc, mpc := mpc, status := status } }

theorem onlyMoves_advance : OnlyMoves State.advance := fun _ => ⟨_, _, _, rfl⟩

theorem onlyMoves_complete (n : Nat) : OnlyMoves (State.complete n) := fun _ => ⟨_, _, _, rfl⟩

section Quiet

variable {s t : State}

theorem quietFrame_raise (c : Code) (s : State) : QuietFrame s (s.raise c) :=
  ⟨transferFrame_of_latch fun _ _ => rfl, ⟨rfl, rfl⟩, ⟨rfl, rfl⟩⟩

theorem quietFrame_drivenCs {k : State → State} (hk : OnlyMoves k) (level : Bool) (s : State) :
    QuietFrame s (k (drivenCs level s)) := by
  obtain ⟨_, _, _, e⟩ := hk (drivenCs level s)
  rw [e]
  exact ⟨transferFrame_of_latch fun _ hn => getLsbD_drivenCs level s hn, ⟨rfl, rfl⟩, ⟨rfl, rfl⟩⟩

variable (hl : s.setup.params.Legal)
include hl

theorem csHigh_quiet {k : State → State} (hk : OnlyMoves k) (h : csHigh k s = .next t) : QuietFrame s t := by
  rcases csHigh_cases hl k with e | e <;> cases h.symm.trans e
  · exact quietFrame_drivenCs hk true s
  · exact quietFrame_raise _ s

theorem csLow_quiet {k : State → State} (hk : OnlyMoves k) (h : csLow k s = .next t) : QuietFrame s t := by
  rcases csLow_cases hl k with e | e <;> cases h.symm.trans e
  · exact quietFrame_drivenCs hk false s
  · exact quietFrame_raise _ s

theorem xferSend_quiet {tx : Byte} (h : xferSend tx s = .next t) : QuietFrame s t := by
  rcases xferSend_cases hl tx with e | e
  · cases h.symm.trans e
    exact ⟨transferFrame_of_latch fun _ _ => rfl, ⟨rfl, rfl⟩, ⟨rfl, rfl⟩⟩
  · rw [Ser.clearArmed_eq] at e
    cases h.symm.trans e
    exact ⟨transferFrame_of_latch fun _ _ => rfl, ⟨rfl, rfl⟩, ⟨rfl, rfl⟩⟩

theorem xferAwait_quiet (h : xferAwait s = .next t) : QuietFrame s t := by
  have e := h.symm.trans (xferAwait_eq hl)
  split at e
  · cases e
    exact ⟨transferFrame_of_latch fun _ _ => rfl, ⟨rfl, rfl⟩, ⟨rfl, rfl⟩⟩
  · cases e
    rcases pollFailed_cases .timeoutBus (({ s with ser := s.ser.arm } : State).disarm.setT (regValue .spsr s)) with
      e | ⟨-, e⟩ <;> rw [e] <;> exact ⟨transferFrame_of_latch fun _ _ => rfl, ⟨rfl, rfl⟩, ⟨rfl, rfl⟩⟩

/-- A capture takes a byte into CTRL, and no result. -/
theorem xferCapture_frame {dst : Byte → State → State}
    (hd : ∀ b u, ∃ hi lo, dst b u = { u with ctrl := { u.ctrl with hi := hi, lo := lo } })
    (h : xferCapture dst s = .next t) : TransferFrame s t ∧ SameResults s t := by
  have e := h.symm.trans (xferCapture_eq hl dst)
  obtain ⟨_, _, e'⟩ := hd s.ser.spdrRx (({ s with ser := s.ser.clearArmed } : State).disarm.setT (regValue .spdr s))
  rw [e', Ser.clearArmed_eq] at e
  cases e
  exact ⟨transferFrame_of_latch fun _ _ => rfl, rfl, rfl⟩

theorem csHigh_finishRead_frame (h : csHigh State.finishRead s = .next t) : TransferFrame s t := by
  rcases csHigh_cases hl State.finishRead with e | e <;> cases h.symm.trans e
  · exact transferFrame_of_latch fun _ hn => getLsbD_drivenCs true s hn
  · exact (quietFrame_raise _ s).toTransferFrame

/-- A read's micro-steps: only the last gives a result. -/
theorem sciRead_frame {a : Byte} (hk : s.ctrl.mpc < 12) (h : sciRead a s = .next t) :
    TransferFrame s t ∧ (s.ctrl.mpc ≠ 11 → SameResults s t) := by
  have hquiet : QuietFrame s t → TransferFrame s t ∧ (s.ctrl.mpc ≠ 11 → SameResults s t) :=
    fun hq => ⟨hq.toTransferFrame, fun _ => hq.results⟩
  have hcapture : TransferFrame s t ∧ SameResults s t → TransferFrame s t ∧ (s.ctrl.mpc ≠ 11 → SameResults s t) :=
    And.imp_right fun hr _ => hr
  have hsend {tx : Byte} (h : xferSend tx s = .next t) := hquiet (xferSend_quiet hl h)
  have hawait (h : xferAwait s = .next t) := hquiet (xferAwait_quiet hl h)
  unfold sciRead at h
  interval_cases hm : s.ctrl.mpc
  · exact hquiet (csLow_quiet hl onlyMoves_advance h)
  · exact hsend h
  · exact hawait h
  · exact hsend h
  · exact hawait h
  · exact hsend h
  · exact hawait h
  · exact hcapture (xferCapture_frame hl (fun _ _ => ⟨_, _, rfl⟩) h)
  · exact hsend h
  · exact hawait h
  · exact hcapture (xferCapture_frame hl (fun _ _ => ⟨_, _, rfl⟩) h)
  · exact ⟨csHigh_finishRead_frame hl h, fun hne => absurd rfl hne⟩

/-- The micro-steps of a frame that captures nothing. -/
theorem sendFrame_quiet {assert release : State → Out} {bytes : List Byte}
    (hk : s.ctrl.mpc < 2 * bytes.length + 2) (hassert : assert s = .next t → QuietFrame s t)
    (hrelease : release s = .next t → QuietFrame s t) (h : sendFrame assert release bytes s = .next t) :
    QuietFrame s t := by
  rcases sendFrame_cases (assert := assert) (release := release) hk with ⟨-, e⟩ | ⟨-, b, e⟩ | e | ⟨-, e⟩ <;>
    rw [e] at h
  · exact hassert h
  · exact xferSend_quiet hl h
  · exact xferAwait_quiet hl h
  · exact hrelease h

end Quiet

/-- No read: neither READ_REGISTER nor its frame. -/
def NoRead (i : Instr) : Prop := ∀ a, i ≠ .readRegister a ∧ i ≠ .sciReadFrame a

theorem not_noRead_of_carrier {i : Instr} {a : Byte} (hc : carrier i = .readRegister a) : ¬NoRead i := by
  intro hn
  obtain ⟨hop, hframe⟩ := hn a
  cases i with
  | readRegister => exact hop hc
  | sciReadFrame =>
    cases hc
    exact hframe rfl
  | _ => cases hc

/-- What a micro-step of `i` leaves: the frame's part, the results but at a read's last micro-step, and the captured
bytes but in a read. -/
structure ReadsOnly (i : Instr) (s t : State) : Prop extends TransferFrame s t where
  results : NoRead i ∨ s.ctrl.mpc ≠ 11 → SameResults s t
  captures : NoRead i → SameCaptures s t

theorem QuietFrame.readsOnly {s t : State} (h : QuietFrame s t) (i : Instr) : ReadsOnly i s t :=
  ⟨h.toTransferFrame, fun _ => h.results, fun _ => h.captures⟩

section ReadsOnly

variable {i : Instr} {s t : State} (hl : s.setup.params.Legal) (h : exec i s = .next t)
include hl h

/-- A micro-step is one of the operation's own, which are its carrier's. -/
theorem mpc_lt_of_carrier {j : Instr} (hc : carrier i = j) : s.ctrl.mpc < microSteps j := by
  rw [← hc, microSteps_carrier]
  exact mpc_lt_of_exec hl h

theorem readRegister_readsOnly {a : Byte} (hc : carrier i = .readRegister a) : ReadsOnly i s t := by
  rcases micro_or_order (exec_of_carrier_readRegister hc) h with hmicro | rfl
  · obtain ⟨hframe, hresults⟩ := sciRead_frame hl (mpc_lt_of_carrier hl h hc) hmicro
    have hread := not_noRead_of_carrier hc
    exact ⟨hframe, fun hor => hresults (hor.resolve_left hread), fun hn => absurd hn hread⟩
  · exact (quietFrame_raise _ s).readsOnly i

theorem writeRegister_readsOnly {a : Byte} {v : Half} (hc : carrier i = .writeRegister a v) : ReadsOnly i s t := by
  rcases micro_or_order (exec_of_carrier_writeRegister hc) h with hmicro | rfl
  · have hk : s.ctrl.mpc < 2 * (sciWriteBytes s.setup.params a v).length + 2 := mpc_lt_of_carrier hl h hc
    have hquiet := sendFrame_quiet hl hk (csLow_quiet hl onlyMoves_advance)
      (csHigh_quiet hl (onlyMoves_complete 1)) hmicro
    exact hquiet.readsOnly i
  · exact (quietFrame_raise _ s).readsOnly i

theorem sendCommandSequence_readsOnly {b0 b1 b2 b3 b4 b5 b6 b7 : Byte}
    (hc : carrier i = .sendCommandSequence b0 b1 b2 b3 b4 b5 b6 b7) : ReadsOnly i s t := by
  rcases micro_or_order (exec_of_carrier_sendCommandSequence hc) h with hmicro | rfl
  · have hk : s.ctrl.mpc < 18 := mpc_lt_of_carrier hl h hc
    have hquiet := sendFrame_quiet hl (by rwa [sdiBytes_eq hl]) (csHigh_quiet hl onlyMoves_advance)
      (csLow_quiet hl (onlyMoves_complete 3)) hmicro
    exact hquiet.readsOnly i
  · exact (quietFrame_raise _ s).readsOnly i

/-- What sends a frame has one of the three transfer operations for its carrier. -/
theorem exec_readsOnly (hi : sendsFrame i = true) : ReadsOnly i s t := by
  unfold sendsFrame at hi
  split at hi
  · next hc => exact readRegister_readsOnly hl h hc
  · next hc => exact writeRegister_readsOnly hl h hc
  · next hc => exact sendCommandSequence_readsOnly hl h hc
  · cases hi

end ReadsOnly

/-- Settles O48: a micro-step drives chip-select or makes an access of SPDR or SPSR, whatever the transfer state. -/
theorem transferOperationsFrame : Obligations.TransferOperationsFrame := by
  unfold Obligations.TransferOperationsFrame
  intro i s t hl hi h
  obtain ⟨⟨⟨hclk, hlatch, hdev, hsetup, hmoves, hdraws⟩, hpinsel, hspcr, hspccr, hrx, hdir, hlink⟩, hresults,
    hcaptures⟩ := exec_readsOnly hl h hi
  exact ⟨hclk, hpinsel, hspcr, hspccr, hrx, hdir, hlink, hlatch, hdev, hsetup, hmoves, hdraws, hresults, hcaptures⟩

/-! ### The echo double's registers (R189) -/

/-- Settles O53: only the SHIFTER's exchange touches the registers, by a write that keeps their canonical form. -/
theorem decoderMemoryStaysCanonical : Obligations.DecoderMemoryStaysCanonical := by
  unfold Obligations.DecoderMemoryStaysCanonical
  refine ⟨fun s t hwf hstep => ?step, fun m a b v hwf => ⟨m.write_keeps_wf a v hwf, ?read⟩⟩
  case step =>
    obtain ⟨u, m, hu, rfl⟩ := step_stepped hstep
    cases hu with
    | lock | idle | illegal => exact hwf
    | shift => exact Dev.answer_keeps_wf _ _ _ _ _ _ hwf
    | ran _ ht =>
      obtain ⟨-, hdev, -⟩ := (exec_effect ht).keeps
      exact (congrArg Dev.wf hdev).trans hwf
  case read =>
    split
    · next hb => rw [hb, Memory.read_write_same]
    · next hb => exact m.read_write_other v (Ne.symm hb)

/-! ### The bytes of a frame, one micro-step at a time (R193 to R195) -/

/-- What micro-step `k` of an operation that sends a frame does for the frame: it asserts chip-select, queues the byte
that is next, awaits the byte last queued, captures it (READ_REGISTER only), or releases chip-select once all bytes have
been queued and ends the operation. -/
inductive FrameStage (i : Instr) (k : Nat) : Prop
  | assert (hk : k = 0) (hd : DrivesCs i k (frameCs i) nextMicroStep)
  | queue {b : Params → Byte} (hk : k ≠ 0) (hq : QueuesByte i k b) (ha : awaiting i k = false)
    (ha' : awaiting i (k + 1) = true) (hb : ∀ par : Params, par.Legal →
      (frameBytes par i)[queued par i k]? = some (b par) ∧ queued par i (k + 1) = queued par i k + 1)
  | await (hw : AwaitsByte i k) (ha : awaiting i k = true)
    (hn : ∀ par : Params, par.Legal → queued par i (k + 1) = queued par i k ∧ queued par i k ≠ 0)
  | capture {a : Byte} {dst : Byte → Ctrl → Ctrl} (hi : i = .readRegister a) (hk : k = 7 ∨ k = 10)
    (hc : CapturesByte i k dst)
    (hdst : ∀ b c, dst b c = { c with hi := if k = 7 then b else c.hi, lo := if k = 10 then b else c.lo })
  | release {after : State → State} (hk : k ≠ 0) (ha : awaiting i k = false) (hd : DrivesCs i k (!frameCs i) after)
    (hafter : EndsOperation (opWords i) after)
    (hn : ∀ par : Params, par.Legal → queued par i k = (frameBytes par i).length)
    (hresult : ∀ a, i = .readRegister a → k = 11 ∧ ∀ u : State,
      (after u).ctrl.result = u.ctrl.hi ++ u.ctrl.lo ∧
        (after u).env.results = u.env.results ++ [u.ctrl.hi ++ u.ctrl.lo])

theorem frameStage_readRegister {a : Byte} {k : Nat} (hk : k < 12) : FrameStage (.readRegister a) k := by
  obtain ⟨-, h0, h1, h2, h3, h4, h5, h6, h7, h8, h9, h10, h11⟩ :=
    readSteps_of_carrier (i := .readRegister a) rfl
  interval_cases k
  · exact .assert rfl h0
  · exact .queue (by decide) h1 rfl rfl fun _ _ => ⟨rfl, rfl⟩
  · exact .await h2 rfl fun _ _ => ⟨rfl, Nat.succ_ne_zero _⟩
  · exact .queue (by decide) h3 rfl rfl fun _ _ => ⟨rfl, rfl⟩
  · exact .await h4 rfl fun _ _ => ⟨rfl, Nat.succ_ne_zero _⟩
  · exact .queue (by decide) h5 rfl rfl fun _ _ => ⟨rfl, rfl⟩
  · exact .await h6 rfl fun _ _ => ⟨rfl, Nat.succ_ne_zero _⟩
  · exact .capture rfl (.inl rfl) h7 fun _ _ => rfl
  · exact .queue (by decide) h8 rfl rfl fun _ _ => ⟨rfl, rfl⟩
  · exact .await h9 rfl fun _ _ => ⟨rfl, Nat.succ_ne_zero _⟩
  · exact .capture rfl (.inr rfl) h10 fun _ _ => rfl
  · exact .release (by decide) rfl h11 (fun _ => ⟨rfl, rfl, rfl, rfl, rfl, rfl⟩) (fun _ _ => rfl)
      fun _ _ => ⟨rfl, fun _ => ⟨rfl, rfl⟩⟩

/-- A frame that captures nothing and sends `n` bytes, two micro-steps each. -/
theorem frameStage_of_bytes {i : Instr} {n k : Nat} (hread : ∀ a, i ≠ .readRegister a)
    (hawait : ∀ j, awaiting i j = (j % 2 == 0 && decide (2 ≤ j) && decide (j ≤ 2 * n)))
    (hlen : ∀ par : Params, par.Legal → (frameBytes par i).length = n)
    (hqueued : ∀ (par : Params) (j : Nat), queued par i j = min (j / 2) (frameBytes par i).length)
    (hk : k < 2 * n + 2) (hassert : DrivesCs i 0 (frameCs i) nextMicroStep)
    (hbytes : ∀ j, j < n → ∃ b, (QueuesByte i (2 * j + 1) b ∧ AwaitsByte i (2 * j + 2)) ∧
      ∀ par : Params, par.Legal → (frameBytes par i)[j]? = some (b par))
    (hrelease : DrivesCs i (2 * n + 1) (!frameCs i) (atEnd (opWords i))) : FrameStage i k := by
  have hq : ∀ {j m : Nat} {par : Params}, par.Legal → j / 2 = m → m ≤ n → queued par i j = m := fun hl hj hm => by
    rw [hqueued, hlen _ hl, hj, Nat.min_eq_left hm]
  rcases Nat.eq_zero_or_pos k with rfl | hpos
  · exact .assert rfl hassert
  · obtain ⟨j, hj⟩ : ∃ j, k = 2 * j + 1 ∨ k = 2 * j + 2 := ⟨(k - 1) / 2, by omega⟩
    rcases Nat.lt_or_ge j n with hjn | hjn
    · obtain ⟨b, ⟨hqb, hw⟩, hb⟩ := hbytes j hjn
      rcases hj with rfl | rfl
      · refine .queue (by omega) hqb (by simp [hawait]) (by simp [hawait]; omega) fun par hl => ?_
        rw [hq hl (m := j) (by omega) hjn.le, hq hl (m := j + 1) (by omega) hjn]
        exact ⟨hb par hl, rfl⟩
      · refine .await hw (by simp [hawait]; omega) fun par hl => ?_
        rw [hq hl (m := j + 1) (by omega) hjn, hq hl (m := j + 1) (by omega) hjn]
        exact ⟨rfl, j.succ_ne_zero⟩
    · obtain rfl : k = 2 * n + 1 := by omega
      exact .release (by omega) (by simp [hawait]) hrelease (endsOperation_atEnd _)
        (fun par hl => by rw [hq hl (m := n) (by omega) le_rfl, hlen par hl]) fun a ha => absurd ha (hread a)

theorem frameStage_writeRegister {a : Byte} {v : Half} {k : Nat} (hk : k < 10) :
    FrameStage (.writeRegister a v) k := by
  obtain ⟨-, h0, h1, h2, h3, h4, h5, h6, h7, h8, h9⟩ := writeSteps_of_carrier (i := .writeRegister a v) rfl
  refine frameStage_of_bytes (n := 4) nofun (fun _ => rfl) (fun _ _ => rfl) (fun _ _ => rfl) hk h0 (fun j hj => ?_) h9
  interval_cases j
  · exact ⟨_, ⟨h1, h2⟩, fun _ _ => rfl⟩
  · exact ⟨_, ⟨h3, h4⟩, fun _ _ => rfl⟩
  · exact ⟨_, ⟨h5, h6⟩, fun _ _ => rfl⟩
  · exact ⟨_, ⟨h7, h8⟩, fun _ _ => rfl⟩

theorem frameStage_sendCommandSequence {b0 b1 b2 b3 b4 b5 b6 b7 : Byte} {k : Nat} (hk : k < 18) :
    FrameStage (.sendCommandSequence b0 b1 b2 b3 b4 b5 b6 b7) k := by
  obtain ⟨-, h0, hbytes, h17⟩ :=
    sendSteps_of_carrier (i := .sendCommandSequence b0 b1 b2 b3 b4 b5 b6 b7) rfl
  have hframe : ∀ par : Params, par.Legal →
      frameBytes par (.sendCommandSequence b0 b1 b2 b3 b4 b5 b6 b7) = [b0, b1, b2, b3, b4, b5, b6, b7] :=
    fun _ hl => sdiBytes_eq hl ..
  refine frameStage_of_bytes (n := 8) nofun (fun _ => rfl) (fun par hl => by rw [hframe par hl]; rfl) (fun _ _ => rfl)
    hk h0 (fun j hj => ?_) h17
  have hb := List.getElem?_eq_getElem (l := [b0, b1, b2, b3, b4, b5, b6, b7]) hj
  exact ⟨_, hbytes j _ hb, fun par hl => by rw [hframe par hl, hb]⟩

/-- Where a byte is awaited the micro-step polls, and a byte has been queued. -/
theorem FrameStage.awaits {i : Instr} {k : Nat} (h : FrameStage i k) (ha : awaiting i k = true) :
    AwaitsByte i k ∧ ∀ par : Params, par.Legal → queued par i k ≠ 0 := by
  cases h with
  | assert hk => cases (hk ▸ ha).symm.trans (awaiting_start i)
  | queue _ _ ha' | release _ ha' => cases ha.symm.trans ha'
  | capture hi hk =>
    subst hi
    rcases hk with rfl | rfl <;> cases ha
  | await hw _ hn => exact ⟨hw, fun par hl => (hn par hl).2⟩

/-- No program runs a wire frame (30_encoding.md R105). -/
theorem Runs.frameStage {i : Instr} {s : State} (hr : Runs i s) (h : BlockInv s) (hi : sendsFrame i = true) :
    FrameStage i s.ctrl.mpc := by
  have hk := hr.mpc_lt h
  cases i with
  | readRegister => exact frameStage_readRegister hk
  | writeRegister => exact frameStage_writeRegister hk
  | sendCommandSequence => exact frameStage_sendCommandSequence hk
  | clkConfigure | clkEnable | clkAwaitLock | clkSwitch | clkTuneMem | busConfig => cases hi
  | sciWriteFrame | sciReadFrame | sdiCommandFrame | sineTestCommand =>
    exact absurd hr.isOperation Bool.false_ne_true

/-! ### Inside a frame -/

/-- What the invariant says of the link inside a frame of `i`: chip-select is asserted, as the latch has it and as the
decoder sees it, and a transfer is in flight only where its byte is awaited and SPIF is not set (R196, R199). -/
structure InFrame (i : Instr) (s : State) : Prop where
  legal : s.setup.params.Legal
  stage : FrameStage i s.ctrl.mpc
  started : s.ctrl.mpc ≠ 0
  latch : s.csLatch = frameCs i
  level : s.csLevel = frameCs i
  idle : awaiting i s.ctrl.mpc = false → s.ser.busy = false
  flight : awaiting i s.ctrl.mpc = true → s.ser.busy = !s.ser.spif

/-- The decoder sees the latch's level while the pin is an output (10_state.md R48). -/
theorem csLevel_of_output {s : State} (hl : s.setup.params.Legal)
    (hout : csBit s.setup.params.csPin s.ser.iodir0 = true) : s.csLevel = s.csLatch := by
  rw [State.csLevel, hout, hl.accepts.outputBit]
  rfl

theorem BlockInv.inFrame {i : Instr} {s : State} (h : BlockInv s) (hr : Runs i s) (hi : sendsFrame i = true)
    (hk : s.ctrl.mpc ≠ 0) : InFrame i s := by
  have hp := hr.precondition h fun h0 => absurd h0 hk
  obtain ⟨⟨-, -, hout⟩, -, htransfer, hcs⟩ := (linkAt_frame_iff hi (linkState_of_precondition hi hp)).mp (hr.linkAt h)
  have hlatch : s.csLatch = frameCs i := hcs hk
  refine ⟨h.legal, hr.frameStage h hi, hk, hlatch, (csLevel_of_output h.legal hout).trans hlatch, hr.not_busy h,
    fun ha => ?_⟩
  rw [if_pos ha] at htransfer
  obtain ⟨hbusy, -⟩ := htransfer
  exact hbusy

/-- A transfer in flight is that of a byte queued before. -/
theorem InFrame.queued_ne_zero {i : Instr} {s : State} (h : InFrame i s) (hb : s.ser.busy = true) :
    queued s.setup.params i s.ctrl.mpc ≠ 0 := by
  cases ha : awaiting i s.ctrl.mpc with
  | true =>
    obtain ⟨-, hq⟩ := h.stage.awaits ha
    exact hq _ h.legal
  | false => cases hb.symm.trans (h.idle ha)

/-- One more exchange: the next byte sent with the byte received for it. -/
theorem exchanges_concat {tx rx : List Byte} {b : Byte} (hb : tx[rx.length]? = some b) (r : Byte) (cs : Bool)
    (op : Nat) : exchanges tx (rx ++ [r]) cs op = exchanges tx rx cs op ++ [.xchg b r cs op] := by
  induction rx generalizing tx with
  | nil =>
    obtain ⟨rest, rfl⟩ : ∃ rest, tx = b :: rest := by
      cases tx with
      | nil => cases hb
      | cons c rest => exact ⟨rest, by cases hb; rfl⟩
    simp [exchanges]
  | cons x rx ih =>
    cases tx with
    | nil => cases hb
    | cons c tx => exact congrArg _ (ih (by simpa using hb))

section Frame

variable {i : Instr} {base : List Event} {rx : List Byte} {s t : State} (hf : FrameSoFar i base rx s)
include hf

/-- A step that makes no event keeps the frame so far, if it starts only the transfer of the next byte. -/
theorem FrameSoFar.of_trace (hexchanged : exchanged i t = exchanged i s)
    (htx : t.ser.busy = true → (frameBytes s.setup.params i)[rx.length]? = some t.ser.spdrTx)
    (hcap : ∀ a, i = .readRegister a → captured t rx) (htrace : t.env.trace = s.env.trace := by rfl)
    (hpc : t.ctrl.opPc = s.ctrl.opPc := by rfl) (hsetup : t.setup = s.setup := by rfl) : FrameSoFar i base rx t := by
  obtain ⟨hlen, hevents, -, -⟩ := hf
  exact ⟨hlen.trans hexchanged.symm, by rw [htrace, hevents, hpc, hsetup], by rwa [hsetup], hcap⟩

/-- The exchange in flight completes, and is the frame's next (R186). -/
theorem FrameSoFar.shift (hin : InFrame i s) (hb : s.ser.busy = true) :
    FrameSoFar i base (rx ++ [(shifterStep s).ser.spdrRx]) (shifterStep s) := by
  have hq := hin.queued_ne_zero hb
  obtain ⟨hlen, hevents, htx, hcap⟩ := hf
  rw [exchanged, if_pos hb] at hlen
  refine ⟨?length, ?trace, nofun, fun a hi => ?captured⟩
  case length =>
    have hnow : exchanged i (shifterStep s) = queued s.setup.params i s.ctrl.mpc := rfl
    rw [List.length_append, List.length_singleton, hnow]
    omega
  case trace =>
    have hevent : (shifterStep s).env.trace = s.env.trace ++
        [.xchg s.ser.spdrTx (shifterStep s).ser.spdrRx s.csLatch s.ctrl.opPc] := rfl
    rw [hevent, hevents, hin.latch, List.append_assoc]
    exact congrArg (fun l => base ++ .cs (frameCs i) s.ctrl.opPc :: l) (exchanges_concat (htx hb) _ _ _).symm
  case captured =>
    obtain ⟨-, hhi, hlo⟩ := hcap a hi
    have hkept : ∀ {n : Nat} {b : Byte} (r : Byte), rx[n]? = some b → (rx ++ [r])[n]? = some b := fun r hb => by
      rw [List.getElem?_append_left (List.getElem?_eq_some_iff.mp hb).1, hb]
    refine ⟨fun b hlast => ?_, fun hk => hkept _ (hhi hk), fun hk => hkept _ (hlo hk)⟩
    rw [List.getLast?_concat] at hlast
    exact Option.some.inj hlast

/-- READ_REGISTER captures only at mpc 7 and 10: another micro-step keeps what has been captured. -/
theorem FrameSoFar.captured_kept {a : Byte} (hi : i = .readRegister a)
    (hk : t.ctrl.mpc = s.ctrl.mpc ∨ t.ctrl.mpc = s.ctrl.mpc + 1 ∧ s.ctrl.mpc ≠ 7 ∧ s.ctrl.mpc ≠ 10)
    (hrx : t.ser.spdrRx = s.ser.spdrRx := by rfl) (hhi : t.ctrl.hi = s.ctrl.hi := by rfl)
    (hlo : t.ctrl.lo = s.ctrl.lo := by rfl) : captured t rx := by
  obtain ⟨-, -, -, hcap⟩ := hf
  obtain ⟨hlast, hhi', hlo'⟩ := hcap a hi
  exact ⟨fun b hb => hrx.trans (hlast b hb), fun h8 => by rw [hhi]; exact hhi' (by omega),
    fun h11 => by rw [hlo]; exact hlo' (by omega)⟩

end Frame

/-- Asserting chip-select opens a frame with no byte exchanged (R196). -/
theorem frameSoFar_assert (i : Instr) {s : State} (hk : s.ctrl.mpc = 0) (hb : s.ser.busy = false) :
    FrameSoFar i s.env.trace [] (nextMicroStep (drivenCs (frameCs i) s)) := by
  have hmpc : (nextMicroStep (drivenCs (frameCs i) s)).ctrl.mpc = 1 := congrArg (· + 1) hk
  have hq : queued s.setup.params i 1 = 0 := by
    unfold queued
    split
    · rfl
    · exact Nat.zero_min _
  refine ⟨?length, ?trace, fun hbusy => ?_, fun a _ => ⟨nofun, fun h8 => ?_, fun h11 => ?_⟩⟩
  case length =>
    rw [exchanged, hmpc]
    exact (Nat.sub_eq_zero_of_le (hq.trans_le (Nat.zero_le _))).symm
  case trace => simp [nextMicroStep, drivenCs, exchanges, Ctrl.next]
  · cases hb.symm.trans hbusy
  · omega
  · omega

/-- The operation has ended with the whole frame on the wire; the result of a read is the frame's third and fourth
bytes received. -/
def EndsFrame (i : Instr) (base : List Event) (rx : List Byte) (s t : State) : Prop :=
  t.ctrl.opPc = s.ctrl.opPc + opWords i ∧ t.ctrl.mpc = 0 ∧
    t.env.trace = base ++ wholeFrame s.setup.params i rx s.ctrl.opPc ∧
    rx.length = (frameBytes s.setup.params i).length ∧
    ∀ a, i = .readRegister a → ∃ x y, rx[2]? = some x ∧ rx[3]? = some y ∧ t.ctrl.result = x ++ y ∧
      t.env.results = s.env.results ++ [x ++ y]

/-- A failed poll read leaves CTRL where it is (00_scope.md R11). -/
theorem afterFailedRead_place (c : Code) (s : State) :
    (afterFailedRead c s).ctrl.opPc = s.ctrl.opPc ∧ (afterFailedRead c s).ctrl.mpc = s.ctrl.mpc := by
  rw [← pollFailed_eq_afterFailedRead]
  rcases pollFailed_cases c s with e | ⟨-, e⟩ <;> rw [e] <;> exact ⟨rfl, rfl⟩

section Ctrl

variable {i : Instr} {base : List Event} {rx : List Byte} {s t : State} (hin : InFrame i s)
  (hf : FrameSoFar i base rx s)
include hin hf

/-- Where no transfer is in flight every byte queued has been exchanged. -/
theorem FrameSoFar.length_of_idle (ha : awaiting i s.ctrl.mpc = false) :
    rx.length = queued s.setup.params i s.ctrl.mpc := by
  obtain ⟨hlen, -⟩ := hf
  rwa [exchanged, hin.idle ha] at hlen

/-- A capture takes the byte last received, the third of the frame at mpc 7 and the fourth at mpc 10 (R193). -/
theorem FrameSoFar.captured_capture {a : Byte} (hi : i = .readRegister a) (hk : s.ctrl.mpc = 7 ∨ s.ctrl.mpc = 10)
    (hmpc : t.ctrl.mpc = s.ctrl.mpc + 1) (hrx : t.ser.spdrRx = s.ser.spdrRx)
    (hhi : t.ctrl.hi = if s.ctrl.mpc = 7 then s.ser.spdrRx else s.ctrl.hi)
    (hlo : t.ctrl.lo = if s.ctrl.mpc = 10 then s.ser.spdrRx else s.ctrl.lo) : captured t rx := by
  subst hi
  have hidle : awaiting (.readRegister a) s.ctrl.mpc = false := by rcases hk with hk | hk <;> rw [hk] <;> rfl
  have hlen := hf.length_of_idle hin hidle
  obtain ⟨-, -, -, hcap⟩ := hf
  obtain ⟨hlast, hhi', -⟩ := hcap a rfl
  have hreceived : ∀ n, rx.length = n + 1 → rx[n]? = some s.ser.spdrRx := fun n hn => by
    have hb : rx[n]? = some (rx[n]'(by omega)) := List.getElem?_eq_getElem (by omega)
    have hget : rx.getLast? = rx[n]? := by rw [List.getLast?_eq_getElem?, hn]; rfl
    rw [hb, hlast _ (hget.trans hb)]
  refine ⟨fun b hb => hrx.trans (hlast b hb), fun _ => ?_, fun h11 => ?_⟩
  · rcases hk with hk | hk
    · rw [hhi, if_pos hk]
      exact hreceived 2 (by rw [hlen, hk]; rfl)
    · rw [hhi, if_neg (by omega)]
      exact hhi' (by omega)
  · have hk : s.ctrl.mpc = 10 := by omega
    rw [hlo, if_pos hk]
    exact hreceived 3 (by rw [hlen, hk]; rfl)

/-- XFER.x0 starts the transfer of the frame's next byte (R181, R182). -/
theorem FrameSoFar.queue {b : Byte} (ha : awaiting i s.ctrl.mpc = false) (ha' : awaiting i (s.ctrl.mpc + 1) = true)
    (hb : (frameBytes s.setup.params i)[queued s.setup.params i s.ctrl.mpc]? = some b)
    (hnext : queued s.setup.params i (s.ctrl.mpc + 1) = queued s.setup.params i s.ctrl.mpc + 1) :
    FrameSoFar i base rx (afterQueue b s) := by
  refine hf.of_trace ?_ (fun _ => hf.length_of_idle hin ha ▸ hb) fun a hi => ?_
  · rw [exchanged, exchanged, hin.idle ha]
    exact congrArg (· - 1) hnext
  · subst hi
    refine hf.captured_kept rfl (.inr ⟨rfl, ?_, ?_⟩) <;> rintro hk <;> rw [hk] at ha' <;> cases ha'

/-- XFER.x1 exchanges nothing, whether it sees SPIF or not (R181). -/
theorem FrameSoFar.await (ha : awaiting i s.ctrl.mpc = true)
    (hnext : queued s.setup.params i (s.ctrl.mpc + 1) = queued s.setup.params i s.ctrl.mpc) :
    FrameSoFar i base rx (afterSuccess s) ∧ FrameSoFar i base rx (afterFailedRead .timeoutBus (afterSpsrRead s)) := by
  obtain ⟨-, -, htx, -⟩ := id hf
  constructor
  · refine hf.of_trace (congrArg (· - if s.ser.busy then 1 else 0) hnext) htx fun a hi => ?_
    subst hi
    refine hf.captured_kept rfl (.inr ⟨rfl, ?_, ?_⟩) <;> rintro hk <;> rw [hk] at ha <;> cases ha
  · rw [← pollFailed_eq_afterFailedRead]
    rcases pollFailed_cases .timeoutBus (afterSpsrRead s) with e | ⟨-, e⟩ <;> rw [e] <;>
      exact hf.of_trace rfl htx fun a hi => hf.captured_kept hi (.inl rfl)

/-- The release of chip-select closes the frame, all of whose bytes have been exchanged (R193 to R198). -/
theorem FrameSoFar.release {after : State → State} (ha : awaiting i s.ctrl.mpc = false)
    (hafter : EndsOperation (opWords i) after)
    (hn : queued s.setup.params i s.ctrl.mpc = (frameBytes s.setup.params i).length)
    (hresult : ∀ a, i = .readRegister a → s.ctrl.mpc = 11 ∧ ∀ u : State,
      (after u).ctrl.result = u.ctrl.hi ++ u.ctrl.lo ∧
        (after u).env.results = u.env.results ++ [u.ctrl.hi ++ u.ctrl.lo]) :
    EndsFrame i base rx s (after (drivenCs (!frameCs i) s)) := by
  have hlen := hf.length_of_idle hin ha
  obtain ⟨-, hevents, -, hcap⟩ := hf
  obtain ⟨hpc, hmpc, -, -, htrace, -⟩ := hafter (drivenCs (!frameCs i) s)
  have hlast : (drivenCs (!frameCs i) s).env.trace = s.env.trace ++ [.cs (!frameCs i) s.ctrl.opPc] := rfl
  refine ⟨hpc, hmpc, by simp [htrace, hlast, hevents, wholeFrame], hlen.trans hn, fun a hi => ?_⟩
  obtain ⟨hk, hend⟩ := hresult a hi
  obtain ⟨hres, hlog⟩ := hend (drivenCs (!frameCs i) s)
  obtain ⟨-, hhi, hlo⟩ := hcap a hi
  exact ⟨_, _, hhi (by omega), hlo (by omega), hres, hlog⟩

/-- CTRL's micro-step keeps the frame so far or ends the operation with the whole frame. -/
theorem FrameSoFar.ctrl (he : exec i s = .next t) :
    (t.ctrl.opPc = s.ctrl.opPc ∧ t.ctrl.mpc ≠ 0 ∧ FrameSoFar i base rx t) ∨ EndsFrame i base rx s t := by
  cases hin.stage with
  | assert hk => exact absurd hk hin.started
  | queue hk hq ha ha' hb =>
    cases he.symm.trans (hq s hin.legal rfl (hin.idle ha))
    obtain ⟨hbyte, hnext⟩ := hb s.setup.params hin.legal
    exact .inl ⟨rfl, Nat.succ_ne_zero _, hf.queue hin ha ha' hbyte hnext⟩
  | await hw ha hn =>
    have he' := he.symm.trans (hw s hin.legal rfl)
    obtain ⟨hnext, -⟩ := hn s.setup.params hin.legal
    obtain ⟨hsuccess, hfailure⟩ := hf.await hin ha hnext
    cases hspif : s.ser.spif with
    | true =>
      rw [hspif, if_pos rfl] at he'
      cases he'
      exact .inl ⟨rfl, Nat.succ_ne_zero _, hsuccess⟩
    | false =>
      rw [hspif, if_neg (by decide)] at he'
      cases he'
      obtain ⟨hpc, hmpc⟩ := afterFailedRead_place .timeoutBus (afterSpsrRead s)
      exact .inl ⟨hpc, hmpc.trans_ne hin.started, hfailure⟩
  | capture hi hk hc hdst =>
    have he' := he.symm.trans (hc s hin.legal rfl)
    rw [hdst] at he'
    cases he'
    obtain ⟨-, -, htx, -⟩ := id hf
    refine .inl ⟨rfl, Nat.succ_ne_zero _, hf.of_trace ?_ htx fun _ _ => hf.captured_capture hin hi hk rfl rfl rfl rfl⟩
    subst hi
    rcases hk with hk | hk <;> simp [exchanged, hk, queued, carrier]
  | @release after hk ha hd hafter hn hresult =>
    have he' : exec i s = .next (after (drivenCs (!frameCs i) s)) :=
      hd s hin.legal rfl (hin.idle ha) fun h0 => absurd h0 hk
    cases he.symm.trans he'
    exact .inr (hf.release hin ha hafter (hn _ hin.legal) hresult)

end Ctrl

/-- Settles O57: the SHIFTER adds the next exchange, CTRL starts the next transfer or ends the frame, and nothing else
makes an event or moves the frame on. -/
theorem frameUnderEveryOrder : Obligations.FrameUnderEveryOrder := by
  unfold Obligations.FrameUnderEveryOrder
  intro i s t h hr hi hstep
  obtain ⟨a, u, hm, hu, rfl⟩ := step_moved hstep
  have hctrl : ctrlStep s = exec i s :=
    let ⟨_, hd⟩ := hr.decode_fetch
    ctrlStep_of_decode hr.status_run hd
  refine ⟨fun h0 => ?begin, fun base rx hk hf => ?go⟩
  case begin =>
    have hidle : s.ser.busy = false := hr.not_busy h (by rw [h0, awaiting_start])
    cases a with
    | pll =>
      cases hu
      exact .inl ⟨h0, rfl⟩
    | shifter =>
      have hshift : shifterEnabled s = true := mover_mayMove hm
      rw [shifterEnabled, hidle] at hshift
      cases hshift
    | ctrl =>
      have he : exec i s = .next u := hctrl.symm.trans hu
      cases hp : precondition i s with
      | false =>
        cases he.symm.trans (outOfOrderFaults i s h0 hp)
        exact .inl ⟨h0, rfl⟩
      | true =>
        cases hr.frameStage h hi with
        | assert _ hd =>
          cases he.symm.trans (hd s h.legal rfl hidle fun _ => hp)
          exact .inr ⟨congrArg (· + 1) h0, frameSoFar_assert i h0 hidle⟩
        | await _ ha => exact absurd ha (by rw [h0, awaiting_start]; decide)
        | capture _ hk => omega
        | queue hk | release hk => exact absurd h0 hk
  case go =>
    have hin := h.inFrame hr hi hk
    cases a with
    | pll =>
      cases hu
      exact .inl ⟨rfl, hk, .inl hf⟩
    | shifter =>
      have hshift : shifterEnabled s = true := mover_mayMove hm
      rw [shifterEnabled, Bool.and_eq_true] at hshift
      obtain ⟨hbusy, -⟩ := hshift
      cases hu
      exact .inl ⟨rfl, hk, .inr ⟨_, hf.shift hin hbusy⟩⟩
    | ctrl =>
      rcases hf.ctrl hin (hctrl.symm.trans hu) with ⟨hpc, hmpc, ht⟩ | hend
      · exact .inl ⟨hpc, hmpc, .inl ht⟩
      · exact .inr hend

/-! ### The echo double inside a frame (R189) -/

/-- The scan of a frame's exchanges with chip-select low finds the bytes sent so far. -/
theorem foldl_sciScan_exchanges (tx rx acc : List Byte) (op : Nat) :
    (exchanges tx rx false op).foldl sciScan (some acc) = some (acc ++ tx.take rx.length) := by
  induction rx generalizing tx acc with
  | nil => simp [exchanges]
  | cons r rx ih =>
    cases tx with
    | nil => simp [exchanges]
    | cons b tx =>
      refine (ih tx (acc ++ [b])).trans ?_
      simp

/-- To the first four bytes of a read the double answers a written register's high byte third and low byte fourth, and
takes nothing. -/
theorem echoAnswer_read {par : Params} (hops : par.sciReadOp ≠ par.sciWriteOp) (regs : Memory) (a tx : Byte)
    {k : Nat} (hk : k < 4) (n : Nat) :
    (echoAnswer par regs ((sciReadBytes par a).take k) tx n).2 = regs ∧
      ∀ v, regs.read a = some v → 2 ≤ k →
        (echoAnswer par regs ((sciReadBytes par a).take k) tx n).1 = readPart k v := by
  interval_cases k
  · exact ⟨rfl, fun _ _ h2 => absurd h2 (by decide)⟩
  · exact ⟨rfl, fun _ _ h2 => absurd h2 (by decide)⟩
  · exact ⟨rfl, fun v hv _ => by simp [sciReadBytes, echoAnswer, Memory.readByte, hv, readPart]⟩
  · exact ⟨by simp [sciReadBytes, echoAnswer, hops],
      fun v hv _ => by simp [sciReadBytes, echoAnswer, Memory.readByte, hv, readPart]⟩

/-- With the fourth byte of a write the double takes the value, and with none before it. -/
theorem echoAnswer_write {par : Params} (hl : par.Legal) (regs : Memory) (a : Byte) (v : Half) {k : Nat} {tx : Byte}
    (htx : (sciWriteBytes par a v)[k]? = some tx) (n : Nat) :
    (echoAnswer par regs ((sciWriteBytes par a v).take k) tx n).2 = if k = 3 then regs.write a v else regs := by
  have hk : k < 4 := (List.getElem?_eq_some_iff.mp htx).1
  interval_cases k
  · rfl
  · rfl
  · rfl
  · cases htx
    simp [sciWriteBytes, echoAnswer, echoTake, hasRegister_eq hl, registerValue_eq hl, highByte_append_lowByte]

/-- The SHIFTER's step with the echo double selected: the double answers to the bytes sent so far (R186, R189). -/
theorem shifterStep_echo {s : State} {regs : Memory} {sent : List Byte} (hdev : s.env.dev = .echo regs)
    (hcs : s.csLevel = false) (hsent : sciInProgress s.env.trace = some sent) :
    (shifterStep s).ser.spdrRx = (echoAnswer s.setup.params regs sent s.ser.spdrTx s.draws).1 ∧
      (shifterStep s).env.dev = .echo (echoAnswer s.setup.params regs sent s.ser.spdrTx s.draws).2 := by
  simp [shifterStep, hdev, Dev.answer, hcs, hsent]

/-- With chip-select high the double takes nothing. -/
theorem shifterStep_echo_unselected {s : State} {regs : Memory} (hdev : s.env.dev = .echo regs)
    (hcs : s.csLevel = true) : (shifterStep s).env.dev = .echo regs := by
  simp [shifterStep, hdev, Dev.answer, hcs]

/-- CTRL's step and the PLL's leave what the double has made of the frame. -/
theorem EchoSoFar.of_dev {i : Instr} {regs : Memory} {rx : List Byte} {s t : State} (h : EchoSoFar i regs rx s)
    (hdev : t.env.dev = s.env.dev) : EchoSoFar i regs rx t := by
  obtain ⟨hs, hans⟩ := h
  exact ⟨hdev.trans hs, hans⟩

/-- A command sequence has chip-select high, so that the double takes no part in it. -/
theorem EchoSoFar.shift_send {b0 b1 b2 b3 b4 b5 b6 b7 : Byte} {regs : Memory} {rx rx' : List Byte} {s : State}
    (he : EchoSoFar (.sendCommandSequence b0 b1 b2 b3 b4 b5 b6 b7) regs rx s) (hcs : s.csLevel = true) :
    EchoSoFar (.sendCommandSequence b0 b1 b2 b3 b4 b5 b6 b7) regs rx' (shifterStep s) := by
  obtain ⟨hdev, -⟩ := he
  exact ⟨shifterStep_echo_unselected hdev hcs, trivial⟩

section Shift

variable {i : Instr} {base : List Event} {rx : List Byte} {s : State} (hin : InFrame i s)
  (hf : FrameSoFar i base rx s)

include hf in
/-- The double's scan of the trace finds the frame's bytes sent so far, where the frame is an SCI frame. -/
theorem FrameSoFar.sciInProgress_eq (hcs : frameCs i = false) :
    sciInProgress s.env.trace = some ((frameBytes s.setup.params i).take rx.length) := by
  obtain ⟨-, hevents, -, -⟩ := hf
  rw [hevents, hcs, sciInProgress_frame, foldl_sciScan_exchanges, List.nil_append]

variable {regs : Memory} (he : EchoSoFar i regs rx s) (hb : s.ser.busy = true)
include hin hf he hb

/-- The completion of a read's exchange adds the double's answer. -/
theorem EchoSoFar.shift_read {a : Byte} (hi : i = .readRegister a) :
    EchoSoFar i regs (rx ++ [(shifterStep s).ser.spdrRx]) (shifterStep s) := by
  subst hi
  obtain ⟨hdev, hans⟩ := he
  obtain ⟨hrx, hdev'⟩ := shifterStep_echo hdev hin.level (hf.sciInProgress_eq rfl)
  obtain ⟨-, -, htx, -⟩ := hf
  have hlt : rx.length < 4 := (List.getElem?_eq_some_iff.mp (htx hb)).1
  obtain ⟨hregs, hbyte⟩ := echoAnswer_read hin.legal.sciOps regs a s.ser.spdrTx hlt s.draws
  refine ⟨hdev'.trans (congrArg _ hregs), fun v hv k h2 hk => ?_⟩
  rw [List.length_append, List.length_singleton] at hk
  rcases Nat.lt_or_ge k rx.length with hold | hnew
  · rw [List.getElem?_append_left hold]
    exact hans v hv k h2 hold
  · obtain rfl : k = rx.length := by omega
    rw [List.getElem?_concat_length, hrx]
    exact congrArg some (hbyte v hv h2)

/-- The completion of a write's fourth exchange is where the double takes the value. -/
theorem EchoSoFar.shift_write {a : Byte} {v : Half} (hi : i = .writeRegister a v) :
    EchoSoFar i regs (rx ++ [(shifterStep s).ser.spdrRx]) (shifterStep s) := by
  subst hi
  obtain ⟨-, -, htx, -⟩ := id hf
  have hlt : rx.length < 4 := (List.getElem?_eq_some_iff.mp (htx hb)).1
  obtain ⟨hdev, -⟩ := he
  simp only [if_neg hlt.ne] at hdev
  obtain ⟨-, hdev'⟩ := shifterStep_echo hdev hin.level (hf.sciInProgress_eq rfl)
  have hregs := echoAnswer_write hin.legal regs a v (htx hb) s.draws
  have hiff : rx.length = 3 ↔ (rx ++ [(shifterStep s).ser.spdrRx]).length = 4 := by
    rw [List.length_append, List.length_singleton]
    omega
  exact ⟨hdev'.trans (congrArg _ (hregs.trans (if_congr hiff rfl rfl))), trivial⟩

end Shift

/-- Settles O58: only a completed exchange moves the double, and a frame's bytes so far are what it answers to. -/
theorem echoUnderEveryOrder : Obligations.EchoUnderEveryOrder := by
  unfold Obligations.EchoUnderEveryOrder
  intro i regs base rx s t h hr hi hk hf hecho hstep hmpc
  obtain ⟨a, u, hm, hu, rfl⟩ := step_moved hstep
  have hin := h.inFrame hr hi hk
  cases a with
  | pll =>
    cases hu
    exact .inl ⟨hf, hecho⟩
  | shifter =>
    have hshift : shifterEnabled s = true := mover_mayMove hm
    rw [shifterEnabled, Bool.and_eq_true] at hshift
    obtain ⟨hb, -⟩ := hshift
    cases hu
    refine .inr ⟨_, hf.shift hin hb, ?_⟩
    have hnext : EchoSoFar i regs (rx ++ [(shifterStep s).ser.spdrRx]) (shifterStep s) := by
      cases i with
      | readRegister => exact hecho.shift_read hin hf hb rfl
      | writeRegister => exact hecho.shift_write hin hf hb rfl
      | sendCommandSequence => exact hecho.shift_send hin.level
      | clkConfigure | clkEnable | clkAwaitLock | clkSwitch | clkTuneMem | busConfig => cases hi
      | sciWriteFrame | sciReadFrame | sdiCommandFrame | sineTestCommand =>
        exact absurd hr.isOperation Bool.false_ne_true
    exact hnext.of_dev rfl
  | ctrl =>
    obtain ⟨_, hd⟩ := hr.decode_fetch
    have he : exec i s = .next u := (ctrlStep_of_decode hr.status_run hd).symm.trans hu
    obtain ⟨-, hdev, -⟩ := (exec_effect he).keeps
    rcases hf.ctrl hin he with ⟨-, -, ht⟩ | ⟨-, hend, -⟩
    · exact .inl ⟨ht, hecho.of_dev hdev⟩
    · exact absurd hend hmpc

/-! ### A write and a read against the echo double (R189, R201) -/

/-- Between two operations against the echo double: the link is ready and idle with the chip-select pin an output, and
the double holds `regs`. -/
structure EchoReady (regs : Memory) (s : State) : Prop where
  link : LinkIdle s
  mpc : s.ctrl.mpc = 0
  out : csBit s.setup.params.csPin s.ser.iodir0 = true
  ready : linkReady s = true
  dev : s.env.dev = .echo regs

/-- Inside an SCI frame begun in `s`, at micro-step `k`: chip-select is low, the double has seen the bytes `sent` and
holds `regs`, and no result has been given. -/
structure EchoFrame (regs : Memory) (sent : List Byte) (k : Nat) (s u : State) : Prop where
  link : LinkIdle u
  mpc : u.ctrl.mpc = k
  out : csBit u.setup.params.csPin u.ser.iodir0 = true
  latch : u.csLatch = false
  sent : sciInProgress u.env.trace = some sent
  dev : u.env.dev = .echo regs
  setup : u.setup = s.setup
  ready : linkReady u = true
  results : u.env.results = s.env.results

/-- The select-assert begins a frame. -/
theorem EchoReady.assert {i : Instr} {regs : Memory} {s : State} (h : EchoReady regs s)
    (hp : precondition i s = linkReady s) (hd : DrivesCs i 0 false nextMicroStep) :
    linkRun i 1 s = .next (nextMicroStep (drivenCs false s)) ∧
      EchoFrame regs [] 1 s (nextMicroStep (drivenCs false s)) :=
  ⟨linkRun_one_of_idle (hd s h.link.legal h.mpc h.link.idle fun _ => hp.trans h.ready) h.link.idle,
    ⟨h.link.legal, h.link.master, h.link.idle⟩, congrArg (· + 1) h.mpc, h.out, csLatch_drivenCs false s,
    sciInProgress_frame s.env.trace s.ctrl.opPc [], h.dev, rfl, h.ready, rfl⟩

section EchoFrame

variable {i : Instr} {regs : Memory} {sent : List Byte} {k : Nat} {s u : State} (h : EchoFrame regs sent k s u)
include h

/-- A byte queued and awaited is exchanged for the double's answer to the frame so far. -/
theorem EchoFrame.byte {b : Params → Byte} (hq : QueuesByte i k b) (ha : AwaitsByte i (k + 1)) :
    ∃ t n, linkRun i 2 u = .next t ∧
      EchoFrame (echoAnswer s.setup.params regs sent (b s.setup.params) n).2 (sent ++ [b s.setup.params]) (k + 2) s t ∧
      t.ser.spdrRx = (echoAnswer s.setup.params regs sent (b s.setup.params) n).1 ∧ t.ctrl.hi = u.ctrl.hi := by
  have hexchange : linkRun i 1 u = .next (afterExchange (b u.setup.params) u) :=
    (linkRun_succ (hq u h.link.legal h.mpc h.link.idle) 0).trans (congrArg _ (deliver_of_busy rfl h.link.master))
  have hawait : linkRun i 1 (afterExchange (b u.setup.params) u) =
      .next (afterSuccess (afterExchange (b u.setup.params) u)) :=
    linkRun_one_of_idle (ha (afterExchange _ u) h.link.legal (congrArg (· + 1) h.mpc)) rfl
  have hlevel : (afterQueue (b u.setup.params) u).csLevel = false :=
    (csLevel_of_output (s := afterQueue (b u.setup.params) u) h.link.legal h.out).trans h.latch
  obtain ⟨hrx, hdev⟩ := shifterStep_echo (s := afterQueue (b u.setup.params) u) h.dev hlevel h.sent
  have htrace : (afterExchange (b u.setup.params) u).env.trace = u.env.trace ++
      [.xchg (b u.setup.params) (afterExchange (b u.setup.params) u).ser.spdrRx u.csLatch u.ctrl.opPc] := rfl
  rw [← h.setup]
  refine ⟨_, u.draws, (linkRun_add hexchange 1).trans hawait, ⟨⟨h.link.legal, h.link.master, rfl⟩,
    congrArg (· + 2) h.mpc, h.out, h.latch, ?_, hdev, h.setup, h.ready, h.results⟩, hrx, rfl⟩
  have hscan : sciInProgress (afterExchange (b u.setup.params) u).env.trace = some (sent ++ [b u.setup.params]) := by
    rw [htrace, h.latch, sciInProgress, List.foldl_append, ← sciInProgress, h.sent]
    rfl
  exact hscan

/-- A capture exchanges nothing. -/
theorem EchoFrame.capture {dst : Byte → Ctrl → Ctrl} (hc : CapturesByte i k dst)
    (hd : ∀ b c, (dst b c).mpc = c.mpc) :
    ∃ t, linkRun i 1 u = .next t ∧ EchoFrame regs sent (k + 1) s t ∧
      ∃ w, t.ctrl = dst u.ser.spdrRx { u.ctrl with t := w, mpc := u.ctrl.mpc + 1 } := by
  refine ⟨_, linkRun_one_of_idle (hc u h.link.legal h.mpc) h.link.idle, ⟨⟨h.link.legal, h.link.master, h.link.idle⟩,
    (hd _ _).trans (congrArg (· + 1) h.mpc), h.out, h.latch, h.sent, h.dev, h.setup, h.ready, h.results⟩, _, rfl⟩

/-- The select-deassert. -/
theorem EchoFrame.release {after : State → State} (hd : DrivesCs i k true after) (hk : k ≠ 0)
    (hbusy : (after (drivenCs true u)).ser.busy = false) : linkRun i 1 u = .next (after (drivenCs true u)) :=
  linkRun_one_of_idle (hd u h.link.legal h.mpc h.link.idle fun h0 => absurd h0 hk) hbusy

end EchoFrame

/-- A write against the echo double leaves the value in its register, and no result. -/
theorem EchoReady.write {regs : Memory} {s : State} (h : EchoReady regs s) (a : Byte) (v : Half) :
    ∃ t, linkRun (.writeRegister a v) 10 s = .next t ∧ EchoReady (regs.write a v) t ∧
      t.env.results = s.env.results := by
  obtain ⟨-, h0, h1, h2, h3, h4, h5, h6, h7, h8, h9⟩ := writeSteps_of_carrier (i := .writeRegister a v) rfl
  obtain ⟨r0, f0⟩ := h.assert rfl h0
  obtain ⟨t1, n1, r1, f1, -, -⟩ := f0.byte h1 h2
  obtain ⟨t2, n2, r2, f2, -, -⟩ := f1.byte h3 h4
  obtain ⟨t3, n3, r3, f3, -, -⟩ := f2.byte h5 h6
  obtain ⟨t4, n4, r4, f4, -, -⟩ := f3.byte h7 h8
  have r5 := f4.release h9 (by decide) f4.link.idle
  have hregs := echoAnswer_write h.link.legal regs a v (k := 3) rfl n4
  refine ⟨_, (linkRun_add r0 9).trans <| (linkRun_add r1 7).trans <| (linkRun_add r2 5).trans <|
    (linkRun_add r3 3).trans <| (linkRun_add r4 1).trans r5, ⟨⟨f4.link.legal, f4.link.master, f4.link.idle⟩, rfl, f4.out,
    f4.ready, f4.dev.trans (congrArg _ hregs)⟩, f4.results⟩

/-- A read against the echo double gives the value its register holds. -/
theorem EchoReady.read {regs : Memory} {s : State} (h : EchoReady regs s) {a : Byte} {v : Half}
    (hv : regs.read a = some v) :
    ∃ t, linkRun (.readRegister a) 12 s = .next t ∧ t.ctrl.result = v ∧ t.env.results = s.env.results ++ [v] := by
  obtain ⟨-, h0, h1, h2, h3, h4, h5, h6, h7, h8, h9, h10, h11⟩ :=
    readSteps_of_carrier (i := .readRegister a) rfl
  obtain ⟨r0, f0⟩ := h.assert rfl h0
  obtain ⟨t1, n1, r1, f1, -, -⟩ := f0.byte h1 h2
  obtain ⟨t2, n2, r2, f2, -, -⟩ := f1.byte h3 h4
  obtain ⟨t3, n3, r3, f3, hrx3, -⟩ := f2.byte h5 h6
  obtain ⟨t4, r4, f4, w4, hc4⟩ := f3.capture h7 fun _ _ => rfl
  obtain ⟨t5, n5, r5, f5, hrx5, hhi5⟩ := f4.byte h8 h9
  obtain ⟨t6, r6, f6, w6, hc6⟩ := f5.capture h10 fun _ _ => rfl
  have r7 := f6.release h11 (by decide) f6.link.idle
  obtain ⟨-, hthird⟩ := echoAnswer_read h.link.legal.sciOps regs a s.setup.params.dummyByte (k := 2) (by decide) n3
  obtain ⟨-, hfourth⟩ := echoAnswer_read h.link.legal.sciOps regs a s.setup.params.dummyByte (k := 3) (by decide) n5
  have hhi : t6.ctrl.hi = highByte v := by
    rw [hc6]
    exact hhi5.trans ((congrArg Ctrl.hi hc4).trans (hrx3.trans (hthird v hv le_rfl)))
  have hlo : t6.ctrl.lo = lowByte v := by
    rw [hc6]
    exact hrx5.trans (hfourth v hv (by decide))
  have hjoin : t6.ctrl.hi ++ t6.ctrl.lo = v := by rw [hhi, hlo, highByte_append_lowByte]
  have hrun := (linkRun_add r0 11).trans <| (linkRun_add r1 9).trans <| (linkRun_add r2 7).trans <|
    (linkRun_add r3 5).trans <| (linkRun_add r4 4).trans <| (linkRun_add r5 2).trans <| (linkRun_add r6 1).trans r7
  refine ⟨_, hrun, hjoin, ?_⟩
  exact congrArg₂ (fun l x => l ++ [x]) f6.results hjoin

/-- Settles O45: the write leaves the value in the register, and the read finds it there. -/
theorem echoRoundTrip : Obligations.EchoRoundTrip := by
  unfold Obligations.EchoRoundTrip
  intro a v regs s hl h0 hb hmaster hout hready hdev _
  have hs : EchoReady regs s := ⟨⟨hl, hmaster, hb⟩, h0, hout, hready, hdev⟩
  obtain ⟨t, hwrite, ht, hresults⟩ := hs.write a v
  obtain ⟨u, hread, hresult, hlog⟩ := ht.read (regs.read_write_same a v)
  exact ⟨t, u, hwrite, hread, hresult, by rw [hlog, hresults]⟩

/-! ### The wait for a byte (R181, R187) -/

/-- Within `n` steps the machine reaches a state of which `goal` holds. -/
def ReachesWithin (goal : State → Prop) (n : Nat) (s : State) : Prop :=
  ∃ m t, m ≤ n ∧ Host.Core.run core m s = .next t ∧ goal t

section ReachesWithin

variable {goal : State → Prop} {s t : State}

theorem ReachesWithin.of_step {n : Nat} (hstep : step s = .next t) (h : ReachesWithin goal n t) :
    ReachesWithin goal (n + 1) s := by
  obtain ⟨m, u, hm, hrun, hu⟩ := h
  exact ⟨m + 1, u, Nat.succ_le_succ hm, (coreRun_succ hstep m).trans hrun, hu⟩

theorem ReachesWithin.mono {m n : Nat} (h : ReachesWithin goal m s) (hmn : m ≤ n) : ReachesWithin goal n s := by
  obtain ⟨k, t, hk, hrest⟩ := h
  exact ⟨k, t, hk.trans hmn, hrest⟩

theorem reachesWithin_one (hstep : step s = .next t) (ht : goal t) : ReachesWithin goal 1 s :=
  .of_step hstep ⟨0, t, le_rfl, rfl, ht⟩

/-- A wait that ends in two steps or goes on, and each time it goes on uses up one step of a patience. -/
theorem reachesWithin_of_patience {W : State → Prop} {wait : State → Nat} {patience : Nat}
    (hw : ∀ s, W s → ReachesWithin goal 2 s ∨
      wait s < patience ∧ ∃ t, step s = .next t ∧ W t ∧ wait t = wait s + 1) (d : Nat) (hs : W s)
    (hd : patience - wait s = d) : ReachesWithin goal (d + 2) s := by
  induction d generalizing s with
  | zero =>
    rcases hw s hs with h | ⟨hwait, -⟩
    · exact h
    · omega
  | succ d ih =>
    rcases hw s hs with h | ⟨-, t, hstep, ht, hwait⟩
    · exact h.mono (by omega)
    · exact .of_step hstep (ih ht (by omega))

end ReachesWithin

/-- Only the operations and frames that send bytes await one. -/
theorem sendsFrame_of_awaiting {i : Instr} {k : Nat} (ha : awaiting i k = true) : sendsFrame i = true := by
  cases i with
  | clkConfigure | clkEnable | clkAwaitLock | clkSwitch | clkTuneMem | busConfig => cases ha
  | _ => rfl

/-- CTRL awaits a byte at micro-step `k` of the operation `i` at `pc`, with a fair SHIFTER, no poll budget and every
choice of an agent free. -/
structure AwaitsShift (i : Instr) (pc k : Nat) (s : State) : Prop where
  inv : BlockInv s
  runs : Runs i s
  opPc : s.ctrl.opPc = pc
  mpc : s.ctrl.mpc = k
  awaits : awaiting i k = true
  unbounded : s.setup.params.pollBudget = none
  fair : s.setup.params.shiftFair = true
  free : s.moves.script = []

/-- CTRL has gone on to the next micro-step, with no transfer in flight. -/
def ByteArrived (pc k : Nat) (t : State) : Prop := t.ctrl.mpc = k + 1 ∧ t.ctrl.opPc = pc ∧ t.ser.busy = false

section Await

variable {i : Instr} {pc k : Nat} {s : State} (h : AwaitsShift i pc k s)
include h

/-- What the invariant says of the wait: the clock is locked, the port master, and a transfer in flight until SPIF is
set. -/
theorem AwaitsShift.link : s.clk.plock = true ∧ shifterEnabled s = !s.ser.spif ∧ s.ser.busy = !s.ser.spif := by
  have hi := sendsFrame_of_awaiting h.awaits
  have ha : awaiting i s.ctrl.mpc = true := h.mpc ▸ h.awaits
  have hk : s.ctrl.mpc ≠ 0 := fun h0 => by rw [h0, awaiting_start] at ha; cases ha
  have hp := h.runs.precondition h.inv fun h0 => absurd h0 hk
  have hlink := (linkAt_frame_iff hi (linkState_of_precondition hi hp)).mp (h.runs.linkAt h.inv)
  rw [if_pos ha] at hlink
  obtain ⟨⟨hdone, hmaster, -⟩, -, ⟨hbusy, -⟩, -⟩ := hlink
  obtain ⟨-, -, -, -, -, hlock, -⟩ := h.runs.clockAt h.inv
  exact ⟨hlock (by rw [hdone]; decide), by simp [shifterEnabled, hmaster, hbusy], hbusy⟩

/-- The PLL has locked long since. -/
theorem AwaitsShift.pll_idle : pllEnabled s = false := by
  obtain ⟨hlock, -⟩ := h.link
  rw [pllEnabled, hlock, Bool.not_true, Bool.and_false]

/-- CTRL's step is the poll's. -/
theorem AwaitsShift.ctrlStep_eq :
    ctrlStep s = .next (if s.ser.spif then afterSuccess s else afterFailedRead .timeoutBus (afterSpsrRead s)) := by
  obtain ⟨hpoll, -⟩ := (h.runs.frameStage h.inv (sendsFrame_of_awaiting h.awaits)).awaits (h.mpc ▸ h.awaits)
  obtain ⟨rest, hd⟩ := h.runs.decode_fetch
  exact (ctrlStep_of_decode h.runs.status_run hd).trans (hpoll s h.inv.legal rfl)

/-- Once SPIF is set CTRL is the only agent that can move, and its read goes on. -/
theorem AwaitsShift.arrives_of_spif (hspif : s.ser.spif = true) : ReachesWithin (ByteArrived pc k) 1 s := by
  obtain ⟨-, hshift, hbusy⟩ := h.link
  have hquiet : hardwareEnabled s = false := by rw [hardwareEnabled, h.pll_idle, hshift, hspif]; rfl
  have hread := h.ctrlStep_eq
  rw [if_pos hspif] at hread
  have hstep := step_of_mover (mover_eq_ctrl h.runs.status_run (.inl hquiet))
  rw [agentStep, hread] at hstep
  exact reachesWithin_one hstep ⟨congrArg (· + 1) h.mpc, h.opPc, hbusy.trans (by rw [hspif]; rfl)⟩

/-- With the transfer in flight SHIFTER or CTRL moves, and the SHIFTER does if it has been passed over too often
(log 5). -/
theorem AwaitsShift.mover_in_flight (hspif : s.ser.spif = false) :
    mover s = some .shifter ∨ mover s = some .ctrl ∧ s.moves.shiftWait < Config.shiftPatience := by
  obtain ⟨-, hshift, -⟩ := h.link
  rw [hspif, Bool.not_false] at hshift
  have hover : lockOverdue s = false := by simp [lockOverdue, h.pll_idle]
  by_cases hdue : Config.shiftPatience ≤ s.moves.shiftWait
  · exact .inl (by simp [mover, hardwareEnabled, shiftOverdue, hover, hshift, h.free, h.fair, hdue])
  · have hmover : mover s = some (grant s (Config.freeAgent s.moves.tick)) := by
      simp [mover, hardwareEnabled, shiftOverdue, hover, hshift, h.free, hdue]
    rw [hmover]
    cases Config.freeAgent s.moves.tick with
    | shifter => exact .inl (by simp [grant, hshift])
    | pll => exact .inr ⟨by simp [grant, h.pll_idle], Nat.lt_of_not_le hdue⟩
    | ctrl => exact .inr ⟨rfl, Nat.lt_of_not_le hdue⟩

/-- A step that leaves CTRL where it is leaves the wait. -/
theorem AwaitsShift.of_step {t : State} (hstep : step s = .next t)
    (hscript : t.moves.script = s.moves.script.tail) (hstatus : t.ctrl.status = s.ctrl.status := by rfl)
    (hpc : t.ctrl.opPc = s.ctrl.opPc := by rfl) (hmpc : t.ctrl.mpc = s.ctrl.mpc := by rfl)
    (hsetup : t.setup = s.setup := by rfl) : AwaitsShift i pc k t where
  inv := everyStepKeepsBlockInv s t h.inv hstep
  runs := h.runs.congr hstatus hpc hsetup
  opPc := hpc.trans h.opPc
  mpc := hmpc.trans h.mpc
  awaits := h.awaits
  unbounded := hsetup ▸ h.unbounded
  fair := hsetup ▸ h.fair
  free := by rw [hscript, h.free]; rfl

/-- The SHIFTER's step sets SPIF, which CTRL's next read sees. -/
theorem AwaitsShift.arrives_of_shift (hm : mover s = some .shifter) : ReachesWithin (ByteArrived pc k) 2 s :=
  have hstep : step s = .next { shifterStep s with moves := movesAfter .shifter s } := step_of_mover hm
  .of_step hstep ((h.of_step hstep rfl).arrives_of_spif rfl)

/-- A failed read of CTRL's without a budget spins, and the SHIFTER has been passed over once more. -/
theorem AwaitsShift.step_ctrl (hm : mover s = some .ctrl) (hspif : s.ser.spif = false) :
    ∃ t, step s = .next t ∧ AwaitsShift i pc k t ∧ t.moves.shiftWait = s.moves.shiftWait + 1 := by
  obtain ⟨-, hshift, -⟩ := h.link
  have hread := h.ctrlStep_eq
  rw [hspif, if_neg Bool.false_ne_true, afterFailedRead, if_neg (by simp [afterSpsrRead, h.unbounded])] at hread
  have hstep := step_of_mover hm
  rw [agentStep, hread] at hstep
  exact ⟨_, hstep, h.of_step hstep rfl, by simp [movesAfter, waited, hshift, hspif]⟩

end Await

/-- The byte has arrived or comes with this step, or CTRL has read once more in vain. -/
theorem AwaitsShift.arrives_or_waits {i : Instr} {pc k : Nat} (s : State) (h : AwaitsShift i pc k s) :
    ReachesWithin (ByteArrived pc k) 2 s ∨ s.moves.shiftWait < Config.shiftPatience ∧
      ∃ t, step s = .next t ∧ AwaitsShift i pc k t ∧ t.moves.shiftWait = s.moves.shiftWait + 1 := by
  cases hspif : s.ser.spif with
  | true => exact .inl ((h.arrives_of_spif hspif).mono one_le_two)
  | false =>
    rcases h.mover_in_flight hspif with hm | ⟨hm, hwait⟩
    · exact .inl (h.arrives_of_shift hm)
    · exact .inr ⟨hwait, h.step_ctrl hm hspif⟩

/-- Settles O60: the SHIFTER is passed over at most `Config.shiftPatience` times, then completes the transfer, and CTRL's
next read sees it. -/
theorem fairShifterEndsTheWait : Obligations.FairShifterEndsTheWait := by
  unfold Obligations.FairShifterEndsTheWait
  intro i s h hr ha hbudget hfair hscript
  obtain ⟨n, t, hn, hrun, hmpc, hpc, hbusy⟩ := reachesWithin_of_patience (wait := fun s => s.moves.shiftWait)
    AwaitsShift.arrives_or_waits _ ⟨h, hr, rfl, rfl, ha, hbudget, hfair, hscript⟩ rfl
  exact ⟨n, t, hn, hrun, hmpc, hpc, hbusy⟩

end Sys2Proof.Machine

/-! PROOFS. Faults, hangs and the agents (60_exceptions.md): the one agent that moves in a step (R240), a poll
that never succeeds (R235), and a fault's entry (R232). -/

namespace Sys2Proof.Machine

/-! ### The one agent that moves (R240) -/

/-- Settles O9: the mover is PLL or SHIFTER only where it is enabled, and CTRL out of RUN leaves the machine as it was
(log 21). -/
theorem oneAgentMovesInAStep : Obligations.OneAgentMovesInAStep := by
  unfold Obligations.OneAgentMovesInAStep
  intro s t h
  obtain ⟨a, u, hm, hu, rfl⟩ := step_moved h
  have henabled := mover_mayMove hm
  cases a with
  | pll =>
    cases hu
    obtain ⟨hactive, hunlocked⟩ : s.clk.pllconAct.getLsbD 0 = true ∧ s.clk.plock = false := by
      simpa [MayMove, pllEnabled] using henabled
    exact .inr (.inl ⟨hactive, hunlocked, rfl⟩)
  | shifter =>
    cases hu
    obtain ⟨hbusy, hmaster⟩ : s.ser.busy = true ∧ s.ser.spcr.getLsbD 5 = true := by
      simpa [MayMove, shifterEnabled] using henabled
    exact .inr (.inr (.inl ⟨hbusy, hmaster, rfl⟩))
  | ctrl =>
    by_cases hrun : s.ctrl.status = .run
    · exact .inl ⟨hrun, u, hu, rfl⟩
    · have hidle : ctrlStep s = .next s := by simp [ctrlStep, ctrlEnabled, hrun]
      cases hidle.symm.trans hu
      exact .inr (.inr (.inr ⟨hrun, rfl⟩))

/-! ### A poll that never succeeds (R235; 00_scope.md R11) -/

/-- A micro-step that ends in a failed read only counts it where there is no budget. -/
theorem counts_of_failedRead {o : Out} {c : Code} {u : State} (ho : o = .next (afterFailedRead c u))
    (hb : u.setup.params.pollBudget = none) :
    o = .next { u with ctrl := { u.ctrl with pollCount := u.ctrl.pollCount + 1 } } := by
  simp [ho, afterFailedRead, hb]

section Await

variable {i : Instr} {k : Nat}

/-- In a read's frame the awaits follow the queued bytes, one capture before the last (41_serial.md R193). -/
theorem awaitsByte_of_sciRead {a : Byte} (he : ∀ s, exec i s = operation i (sciRead a) s)
    (hk : k = 2 ∨ k = 4 ∨ k = 6 ∨ k = 9) : AwaitsByte i k :=
  awaitsByte_of he (by omega) fun s _ hm => by
    rw [sciRead]
    rcases hk with rfl | rfl | rfl | rfl <;> simp only [hm]

/-- A frame of `n` bytes that captures nothing awaits one at each even micro-step after its first, up to mpc 2n
(41_serial.md R194, R195). -/
theorem awaitsByte_of_sendFrame {n : Nat} {micro assert release : State → Out}
    (he : ∀ s, exec i s = operation i micro s) (frame : Params → List Byte)
    (hm : ∀ s, micro s = sendFrame assert release (frame s.setup.params) s)
    (hn : ∀ par : Params, par.Legal → (frame par).length = n) (hk : (k % 2 = 0 ∧ 2 ≤ k) ∧ k ≤ 2 * n) :
    AwaitsByte i k := by
  obtain ⟨j, rfl⟩ : ∃ j, k = 2 * j + 2 := ⟨k / 2 - 1, by omega⟩
  refine awaitsByte_of he (by omega) fun s hl hmpc => (hm s).trans (sendFrame_await hmpc (List.getElem?_eq_getElem ?_))
  rw [hn _ hl]
  omega

/-- Where an operation or a frame awaits a byte its micro-step is the poll of SPIF (41_serial.md R181). -/
theorem awaitsByte_of_awaiting (ha : awaiting i k = true) : AwaitsByte i k := by
  cases i with
  | clkConfigure | clkEnable | clkAwaitLock | clkSwitch | clkTuneMem | busConfig => cases ha
  | readRegister a | sciReadFrame a =>
    exact awaitsByte_of_sciRead (a := a) (fun _ => rfl) (by simpa [awaiting, or_assoc] using ha)
  | writeRegister a v | sciWriteFrame a v =>
    exact awaitsByte_of_sendFrame (n := 4) (fun _ => rfl) (sciWriteBytes · a v) (fun _ => rfl) (fun _ _ => rfl)
      (by simpa [awaiting] using ha)
  | sendCommandSequence | sdiCommandFrame | sineTestCommand =>
    exact awaitsByte_of_sendFrame (n := 8) (fun _ => rfl) (sdiBytes · _) (fun _ => rfl)
      (fun _ hl => congrArg List.length (sdiBytes_eq hl ..)) (by simpa [awaiting] using ha)

end Await

/-- Settles O29: either poll's bit is clear, and a failed read with no budget only counts. -/
theorem hangStaysARun : Obligations.HangStaysARun := by
  unfold Obligations.HangStaysARun
  intro i s hl hbudget hfailed
  rcases hfailed with ⟨rfl, h0, hready, hlock⟩ | ⟨hawait, hspif⟩
  · obtain ⟨-, -, hspin⟩ := clkAwaitLockEffect s hl h0
    exact ⟨_, counts_of_failedRead (hspin (eq_of_beq hready) hlock) hbudget, rfl, rfl, rfl, rfl, rfl⟩
  · have hread := awaitsByte_of_awaiting hawait s hl rfl
    rw [hspif, if_neg Bool.false_ne_true] at hread
    exact ⟨_, counts_of_failedRead hread hbudget, rfl, rfl, rfl, rfl, rfl⟩

/-! ### The shape of a micro-step (00_scope.md R10 to R12) -/

/-- The outcomes a meaning of `i` is made of: the order check's fault, one write, one read or one poll after which CTRL
goes on, or the stop past the last micro-step. It says what `Means` forgets: from where a code is raised. -/
inductive MicroShape (i : Instr) (s : State) : Out → Prop
  | order : MicroShape i s (.next (s.raise .order))
  | write (r : Reg) (v : Word) {k : State → State} (hk : ∀ u, Continues i u (k u)) : MicroShape i s (microWrite r v k s)
  | read (r : Reg) {k : Word → State → State} (hk : ∀ v u, Continues i u (k v u)) : MicroShape i s (microRead r k s)
  | poll (r : Reg) (bit : Nat) (c : Code) {k : State → State} (hk : ∀ u, Continues i u (k u)) :
    MicroShape i s (poll r bit c k s)
  | past : MicroShape i s (.fault .noMicroStep)

section Shapes

variable {i : Instr} {s : State}

theorem operation_microShape {micro : State → Out} (hm : MicroShape i s (micro s)) :
    MicroShape i s (operation i micro s) := by
  rcases operation_cases i micro s with ⟨he, -⟩ | ⟨he, -, -⟩ <;> rw [he]
  · exact hm
  · exact .order

theorem xferSend_microShape (tx : Byte) : MicroShape i s (xferSend tx s) := .write _ _ continues_advance

theorem xferAwait_microShape : MicroShape i s (xferAwait s) := .poll _ _ _ continues_advance

theorem xferCapture_microShape {dst : Byte → State → State} (hd : ∀ b u, Continues i u (dst b u)) :
    MicroShape i s (xferCapture dst s) :=
  .read _ fun _ u => (hd _ u).trans (continues_advance _)

theorem sciRead_microShape (a : Byte) : MicroShape i s (sciRead a s) := by
  unfold sciRead
  split
  · exact .write _ _ continues_advance
  · exact xferSend_microShape _
  · exact xferAwait_microShape
  · exact xferSend_microShape _
  · exact xferAwait_microShape
  · exact xferSend_microShape _
  · exact xferAwait_microShape
  · exact xferCapture_microShape fun _ _ => continues_ctrl rfl
  · exact xferSend_microShape _
  · exact xferAwait_microShape
  · exact xferCapture_microShape fun _ _ => continues_ctrl rfl
  · exact .write _ _ continues_finishRead
  · exact .past

theorem sendFrame_microShape {assert release : State → Out} (bytes : List Byte) (ha : MicroShape i s (assert s))
    (hr : MicroShape i s (release s)) : MicroShape i s (sendFrame assert release bytes s) := by
  unfold sendFrame
  split
  · exact ha
  · split
    · split
      · exact xferSend_microShape _
      · exact xferAwait_microShape
    · split
      · exact hr
      · exact .past

/-- Every meaning's micro-step has one of the shapes, for every instruction, state and parameters. -/
theorem exec_microShape (i : Instr) (s : State) : MicroShape i s (exec i s) := by
  cases i with
  | clkConfigure | clkEnable | clkSwitch | clkTuneMem =>
    rw [exec]
    refine operation_microShape ?_
    split
    · exact .write _ _ continues_advance
    · exact .write _ _ continues_advance
    · exact .write _ _ (continues_finishClock rfl)
    · exact .past
  | clkAwaitLock =>
    rw [exec]
    refine operation_microShape ?_
    split
    · exact .poll _ _ _ (continues_finishClock rfl)
    · exact .past
  | busConfig =>
    rw [exec]
    refine operation_microShape ?_
    split
    · exact .read _ fun _ => continues_advance
    · exact .write _ _ continues_advance
    · exact .write _ _ continues_advance
    · exact .write _ _ continues_advance
    · exact .write _ _ continues_advance
    · exact .read _ fun _ => continues_advance
    · exact .write _ _ continues_finishBusConfig
    · exact .past
  | readRegister a | sciReadFrame a => exact operation_microShape (sciRead_microShape a)
  | writeRegister | sciWriteFrame =>
    exact operation_microShape
      (sendFrame_microShape _ (.write _ _ continues_advance) (.write _ _ (continues_complete 1)))
  | sendCommandSequence | sdiCommandFrame | sineTestCommand =>
    exact operation_microShape
      (sendFrame_microShape _ (.write _ _ continues_advance) (.write _ _ (continues_complete 3)))

end Shapes

/-! ### A fault's entry (R232) -/

/-- If CTRL has faulted in `t`, it stands where it stood in `s` and its code is recorded with that op_pc. -/
def FaultsInPlace (s t : State) : Prop :=
  t.ctrl.status = .faulted → t.ctrl.opPc = s.ctrl.opPc ∧ t.ctrl.mpc = s.ctrl.mpc ∧
    ∃ c, t.env.fault = some { code := c, opPc := s.ctrl.opPc }

section Entry

variable {i : Instr} {s u t : State}

/-- No access moves CTRL (20_memory.md R80 to R83). -/
theorem Accessed.samePlace (h : Accessed s u) : SamePlace s u := by
  rw [SamePlace, h.frame.ctrl]
  exact ⟨rfl, rfl, rfl⟩

theorem faultsInPlace_raise (hu : SamePlace s u) (c : Code) : FaultsInPlace s (u.raise c) := by
  obtain ⟨-, hpc, hmpc⟩ := hu
  exact fun _ => ⟨hpc, hmpc, c, by rw [State.raise_env_fault, hpc]⟩

theorem SamePlace.not_faulted (hu : SamePlace s u) (hs : s.ctrl.status ≠ .faulted) : u.ctrl.status ≠ .faulted := by
  obtain ⟨hstatus, -, -⟩ := hu
  rwa [hstatus]

/-- CTRL that goes on stays out of FAULTED. -/
theorem Continues.faultsInPlace (h : Continues i u t) (hu : u.ctrl.status ≠ .faulted) : FaultsInPlace s t := by
  intro ht
  rcases h.status with e | e
  · exact absurd (e.symm.trans ht) hu
  · cases e.symm.trans ht

theorem faultsInPlace_pollFailed (hs : s.ctrl.status ≠ .faulted) (hu : SamePlace s u) (c : Code) :
    FaultsInPlace s (u.pollFailed c) := by
  rcases pollFailed_cases c u with he | ⟨-, he⟩ <;> rw [he]
  · exact fun ht => absurd ht (hu.not_faulted hs)
  · exact faultsInPlace_raise hu c

/-- A read raises the code of its access in place, so only its continuation is left to check. -/
theorem microRead_faultsInPlace {r : Reg} {k : Word → State → State}
    (hk : ∀ v u, SamePlace s u → FaultsInPlace s (k v u)) (ht : microRead r k s = .next t) : FaultsInPlace s t := by
  rcases microRead_cases r k s with ⟨q, he⟩ | he <;> cases he.symm.trans ht
  · exact hk _ _ (Accessed.read q).samePlace
  · exact faultsInPlace_raise Accessed.untouched.samePlace _

/-- A write raises the code of its access in place, so only its continuation is left to check. -/
theorem microWrite_faultsInPlace {r : Reg} {v : Word} {k : State → State}
    (hk : ∀ u, SamePlace s u → FaultsInPlace s (k u)) (ht : microWrite r v k s = .next t) : FaultsInPlace s t := by
  have hplace (q : Reg) : SamePlace s (regWrite q v s).left := (regWrite_accessed q v s).samePlace
  rcases microWrite_cases r v k s with ⟨q, u, hw, he⟩ | ⟨q, c, u, hw, he⟩ | he <;> cases he.symm.trans ht
  · exact hk u (by simpa only [hw, Access.left_ok] using hplace q)
  · exact faultsInPlace_raise (by simpa only [hw, Access.left_bad] using hplace q) c
  · exact faultsInPlace_raise Accessed.untouched.samePlace _

theorem MicroShape.faultsInPlace {o : Out} (h : MicroShape i s o) (hs : s.ctrl.status ≠ .faulted)
    (ht : o = .next t) : FaultsInPlace s t := by
  have hgo {u w : State} (hw : Continues i u w) (hu : SamePlace s u) : FaultsInPlace s w :=
    hw.faultsInPlace (hu.not_faulted hs)
  cases h with
  | order =>
    cases ht
    exact faultsInPlace_raise Accessed.untouched.samePlace _
  | write r v hk => exact microWrite_faultsInPlace (fun u => hgo (hk u)) ht
  | read r hk => exact microRead_faultsInPlace (fun v u => hgo (hk v u)) ht
  | poll r bit c hk =>
    refine microRead_faultsInPlace (fun v u hu => ?_) ht
    split
    · exact hgo (hk _) hu
    · exact faultsInPlace_pollFailed hs hu c
  | past => cases ht

end Entry

/-- Settles O31: every shape a micro-step has raises its code, if it does, before CTRL moves. -/
theorem faultEntry : Obligations.FaultEntry := by
  unfold Obligations.FaultEntry
  exact fun i s t hs ht => (exec_microShape i s).faultsInPlace hs ht

end Sys2Proof.Machine

/-! PROOFS. Reset and hazards (70_reset_and_hazards.md): SPIF and its armed flag after a frame (R273). -/

namespace Sys2Proof.Machine

/-! ### The flags inside a frame (R273; 41_serial.md R181 to R186) -/

/-- From micro-step `k` on, `n` micro-steps of `i` inside a frame leave both SPIF and spif_armed at `flag`, and the link
idle again. -/
def LeavesSpif (i : Instr) (k n : Nat) (flag : Bool) : Prop :=
  ∀ s, LinkIdle s → s.ctrl.mpc = k → ∃ t, linkRun i n s = .next t ∧ LinkIdle t ∧ t.ctrl.mpc = k + n ∧
    t.ser.spif = flag ∧ t.ser.spifArmed = flag

section Flags

variable {i : Instr} {k m n : Nat}

/-- The flags are those of the last stretch. -/
theorem Transfers.leavesSpif {tx : Params → List Byte} {flag : Bool} (h : Transfers i k m tx)
    (h' : LeavesSpif i (k + m) n flag) : LeavesSpif i k (m + n) flag := by
  intro s hs hk
  obtain ⟨u, _, hrun, hu⟩ := h s hs hk
  obtain ⟨t, hrun', hlink, hmpc, hflags⟩ := h' u hu.link (hu.mpc.trans (congrArg (· + m) hk))
  exact ⟨t, (linkRun_add hrun n).trans hrun', hlink, hmpc.trans (Nat.add_assoc ..), hflags⟩

/-- The transfer sets SPIF, and the poll that reads it 1 arms it (41_serial.md R184, R186). -/
theorem leavesSpif_byte {b : Params → Byte} (hq : QueuesByte i k b) (ha : AwaitsByte i (k + 1)) :
    LeavesSpif i k 2 true := by
  intro s h hk
  have hexchange : linkRun i 1 s = .next (afterExchange (b s.setup.params) s) :=
    (linkRun_succ (hq s h.legal hk h.idle) 0).trans (congrArg _ (deliver_of_busy rfl h.master))
  have hawait : linkRun i 1 (afterExchange (b s.setup.params) s) =
      .next (afterSuccess (afterExchange (b s.setup.params) s)) :=
    linkRun_one_of_idle (ha (afterExchange _ s) h.legal (congrArg (· + 1) hk)) rfl
  exact ⟨_, (linkRun_add hexchange 1).trans hawait, ⟨h.legal, h.master, rfl⟩, congrArg (· + 2) hk, rfl, rfl⟩

theorem leavesSpif_bytes {b : Params → Byte} {bs : List (Params → Byte)} (hs : SendsBytes i k (b :: bs)) :
    LeavesSpif i k (2 * (b :: bs).length) true := by
  induction bs generalizing k b with
  | nil =>
    obtain ⟨hq, ha, -⟩ := hs
    exact leavesSpif_byte hq ha
  | cons c bs ih =>
    obtain ⟨hq, ha, hs⟩ := hs
    have hlast := (transfers_byte hq ha).leavesSpif (ih hs)
    rwa [Nat.add_comm, ← Nat.mul_succ] at hlast

/-- The capture's read of SPDR clears armed flags (41_serial.md R183, R185). -/
theorem LeavesSpif.capture {dst : Byte → Ctrl → Ctrl} (h : LeavesSpif i k n true) (hc : CapturesByte i (k + n) dst)
    (hd : ∀ b c, (dst b c).mpc = c.mpc) : LeavesSpif i k (n + 1) false := by
  intro s hs hk
  obtain ⟨u, hrun, hu, hmpc, -, harmed⟩ := h s hs hk
  refine ⟨_, (linkRun_add hrun 1).trans (linkRun_one_of_idle (hc u hu.legal hmpc) hu.idle),
    ⟨hu.legal, hu.master, hu.idle⟩, (hd _ _).trans (congrArg (· + 1) hmpc), ?_, rfl⟩
  simp [harmed]

end Flags

/-! ### The flags after a frame (R273) -/

/-- Run from `s` with each transfer completing as it starts, `i` ends with SPIF and spif_armed at `flag`. -/
def EndsWithSpif (i : Instr) (flag : Bool) (s : State) : Prop :=
  ∃ t, linkRun i (microSteps i) s = .next t ∧ t.ser.spif = flag ∧ t.ser.spifArmed = flag

theorem carrier_of_read {i : Instr} {a : Byte} (h : i = .readRegister a ∨ i = .sciReadFrame a) :
    carrier i = .readRegister a := by
  rcases h with rfl | rfl <;> rfl

section Frames

variable {i : Instr} {s : State} (h : LinkIdle s) (h0 : s.ctrl.mpc = 0) (hp : precondition i s = true)
include h h0 hp

/-- Neither edge of chip-select touches the flags (41_serial.md R190). -/
theorem endsWithSpif_of_leavesSpif {m : Nat} {flag level level' : Bool} {after : State → State}
    (hm : microSteps (carrier i) = m + 2) (hassert : DrivesCs i 0 level nextMicroStep) (hbody : LeavesSpif i 1 m flag)
    (hrelease : DrivesCs i (m + 1) level' after) (hafter : ∀ u, (after u).ser = u.ser) : EndsWithSpif i flag s := by
  have hbegin : linkRun i 1 s = .next (nextMicroStep (drivenCs level s)) :=
    linkRun_one_of_idle (hassert s h.legal h0 h.idle fun _ => hp) h.idle
  obtain ⟨u, hrun, hu, hmpc, hspif, harmed⟩ :=
    hbody (nextMicroStep (drivenCs level s)) ⟨h.legal, h.master, h.idle⟩ (congrArg (· + 1) h0)
  have hser := hafter (drivenCs level' u)
  have hend : linkRun i 1 u = .next (after (drivenCs level' u)) :=
    linkRun_one_of_idle
      (hrelease u hu.legal (hmpc.trans (Nat.add_comm ..)) hu.idle fun hz => absurd hz (Nat.succ_ne_zero m))
      ((congrArg Ser.busy hser).trans hu.idle)
  refine ⟨_, ?run, (congrArg Ser.spif hser).trans hspif, (congrArg Ser.spifArmed hser).trans harmed⟩
  rw [← microSteps_carrier, hm, show m + 2 = 1 + (m + 1) by omega, linkRun_add hbegin, linkRun_add hrun, hend]

theorem endsWithSpif_of_readRegister {a : Byte} (hc : carrier i = .readRegister a) : EndsWithSpif i false s := by
  obtain ⟨-, hassert, hq1, ha2, hq3, ha4, hq5, ha6, hc7, hq8, ha9, hc10, hrelease⟩ := readSteps_of_carrier hc
  have hsends : SendsBytes i 1 [Params.sciReadOp, fun _ => a, Params.dummyByte] :=
    ⟨hq1, ha2, hq3, ha4, hq5, ha6, trivial⟩
  have hhigh := (transfers_bytes hsends).append (transfers_capture hc7 fun _ _ => ⟨rfl, rfl⟩)
  have hbody := (hhigh.leavesSpif (leavesSpif_byte hq8 ha9)).capture hc10 fun _ _ => rfl
  exact endsWithSpif_of_leavesSpif h h0 hp (by rw [hc]; rfl) hassert hbody hrelease fun _ => rfl

theorem endsWithSpif_of_writeRegister {a : Byte} {v : Half} (hc : carrier i = .writeRegister a v) :
    EndsWithSpif i true s := by
  obtain ⟨-, hassert, hq1, ha2, hq3, ha4, hq5, ha6, hq7, ha8, hrelease⟩ := writeSteps_of_carrier hc
  have hsends : SendsBytes i 1 [Params.sciWriteOp, fun _ => a, fun _ => highByte v, fun _ => lowByte v] :=
    ⟨hq1, ha2, hq3, ha4, hq5, ha6, hq7, ha8, trivial⟩
  exact endsWithSpif_of_leavesSpif h h0 hp (by rw [hc]; rfl) hassert (leavesSpif_bytes hsends) hrelease fun _ => rfl

theorem endsWithSpif_of_sendCommandSequence {b0 b1 b2 b3 b4 b5 b6 b7 : Byte}
    (hc : carrier i = .sendCommandSequence b0 b1 b2 b3 b4 b5 b6 b7) : EndsWithSpif i true s := by
  obtain ⟨-, hassert, hsteps, hrelease⟩ := sendSteps_of_carrier hc
  have hsends : SendsBytes i 1 ([b0, b1, b2, b3, b4, b5, b6, b7].map fun b _ => b) := sendsBytes_of_getElem? hsteps
  exact endsWithSpif_of_leavesSpif h h0 hp (by rw [hc]; rfl) hassert (leavesSpif_bytes hsends) hrelease fun _ => rfl

end Frames

/-- The flags a frame ends with are clear exactly for a read, by its last capture (41_serial.md R193 to R195). -/
theorem endsWithSpif_of_sendsFrame {i : Instr} {s : State} (h : LinkIdle s) (h0 : s.ctrl.mpc = 0)
    (hp : precondition i s = true) (hi : sendsFrame i = true) :
    ∃ flag, EndsWithSpif i flag s ∧ (flag = false ↔ ∃ a, carrier i = .readRegister a) := by
  unfold sendsFrame at hi
  split at hi
  · next a hc => exact ⟨false, endsWithSpif_of_readRegister h h0 hp hc, fun _ => ⟨a, hc⟩, fun _ => rfl⟩
  · next hc => exact ⟨true, endsWithSpif_of_writeRegister h h0 hp hc, by simp [hc]⟩
  · next hc => exact ⟨true, endsWithSpif_of_sendCommandSequence h h0 hp hc, by simp [hc]⟩
  · cases hi

/-- Settles O44: the last transfer sets SPIF and its poll arms it, and only a read has an access of SPDR after it. -/
theorem spifAfterFrame : Obligations.SpifAfterFrame := by
  unfold Obligations.SpifAfterFrame
  intro i s hl hi h0 hb hmaster hp
  obtain ⟨flag, ⟨t, hrun, hflags⟩, hread⟩ := endsWithSpif_of_sendsFrame ⟨hl, hmaster, hb⟩ h0 hp hi
  refine ⟨t, hrun, fun ⟨a, ha⟩ => ?_, fun hother => ?_⟩
  · have hclear : flag = false := hread.mpr ⟨a, carrier_of_read ha⟩
    rwa [hclear] at hflags
  · have hset : flag = true := by
      refine Bool.eq_true_of_not_eq_false fun hclear => ?_
      obtain ⟨a, hc⟩ := hread.mp hclear
      exact not_noRead_of_carrier hc hother
    rwa [hset] at hflags

end Sys2Proof.Machine

/-! PROOFS. Words and frames written out from the encodings (30_encoding.md R105 to R113; 95_test_vectors.md section 2),
by the decoder's own lemmas: what is spelled by an encoding decodes, what fails a check is rejected by its name. -/

namespace Sys2Proof.Machine

/-- Bytes that are a frame's encoding decode to it, with nothing left over (30_encoding.md R110 to R113). -/
theorem decodeWire_of_encode {par : Params} {i : Instr} {cs : Bool} {bytes : List Byte} (hw : i.wellFormed = true)
    (hpar : par.sciReadOp ≠ par.sciWriteOp) (h : encode par i = .wire cs bytes) :
    decodeWire par cs bytes = .ok i [] := by
  have himage : decodeImage par (.wire cs bytes) = some i := h ▸ (decodeOfEncode par i hw).1 hpar
  cases hd : decodeWire par cs bytes with
  | ok j rest =>
    obtain ⟨-, rfl, -⟩ := decodedBytesAreTheFrame par cs bytes rest j hd
    obtain rfl : j = i := by simpa [decodeImage, hd] using himage
    rfl
  | reject why => simp [decodeImage, hd] at himage

/-- Words that are a well-formed operation's encoding decode to it, with nothing left over (30_encoding.md R105). -/
theorem decode_of_encodeHost {i : Instr} {ws : List Word} (hw : i.wellFormed = true) (ho : isOperation i = true)
    (h : encodeHost i = ws) : decode ws = .ok i [] :=
  decode_eq_ok_iff.mpr ⟨hw, ho, by rw [h, List.append_nil]⟩

/-- Settles O1: the accepted words and bytes are encodings; each rejected list has no opcode of R105, or fails a check of
its own opcode's decoder. -/
theorem writtenOutWordsDecode : Obligations.WrittenOutWordsDecode := by
  unfold Obligations.WrittenOutWordsDecode
  have hpar : Params.hardware.sciReadOp ≠ Params.hardware.sciWriteOp := by decide
  refine ⟨?configure, ?tune, ?bus, ?write, ?send, ?reserved, ?tuneZero, ?busOdd, ?short, ?unassigned,
    ?sciWrite, ?sciRead, ?sdi, ?tone⟩
  case configure | tune | bus | write | send => exact decode_of_encodeHost rfl rfl rfl
  case reserved => exact (decode_clkConfigure [] rfl).trans (if_neg (by decide))
  case tuneZero => exact (decode_clkTuneMem [] rfl).trans ((if_pos (by decide)).trans (if_neg (by decide)))
  case busOdd => exact (decode_busConfig [] rfl).trans ((if_pos (by decide)).trans (if_neg (by decide)))
  case short => exact (decode_sendCommandSequence _ rfl).trans (if_pos (by decide))
  case unassigned => decide
  case sciWrite | sciRead | sdi | tone => exact decodeWire_of_encode rfl hpar rfl

end Sys2Proof.Machine
